-- ==== Sys2Proof/Word.lean ====
section
/-! DEFINITION. The word types of JPEG-MSP (`00_scope.md` R10, R11; widths of `10_state.md` R20).
Every value of the block is an unsigned bit pattern; nothing is signed. -/

namespace Sys2Proof

/-- A byte of the stream or an 8-bit state element (R10). -/
abbrev Byte := BitVec 8

/-- A 4-bit field: one half of a packed byte (R10). -/
abbrev Nibble := BitVec 4

/-- A 16-bit field: the length of a segment, a dimension, an information register of the fatal latch (R101, R112, R25). -/
abbrev Half := BitVec 16

/-- A 32-bit saturating counter or event payload (R8 `W_DISCARD`, `W_SCAN`; R354). -/
abbrev Count := BitVec 32

/-- A 32-bit information word of a fatal error (R341 with D23 of `92_eei_decisions.md`; log entry 13). -/
abbrev InfoWord := BitVec 32

/-- A stream position as the register `pos` holds it (R8 `W_POS`, R22). -/
abbrev Position := BitVec 64

end Sys2Proof
end

