-- ==== Sys2Proof/Config.lean ====
section
/-! DEFINITION. What is fixed for one JPEG-MSP and what the spec leaves open:
the construction-time recogniser bits (`00_scope.md` R9, `10_state.md` R47)
and the free values (log entry 6). -/

namespace Sys2Proof

/-- The two construction-time configuration bits of R9: `true` selects the recognising decoder of the
application extension, `false` the Skip decoder (R223). No command and no marker changes them (R47). -/
structure RecognizerConfig where
  app0  : Bool
  app14 : Bool
  deriving DecidableEq, Repr

/-- The default of R9: both recognisers on. -/
def RecognizerConfig.default : RecognizerConfig := { app0 := true, app14 := true }

/-- FREE VALUE (log entry 6). What a table-index nibble of a frame component holds between the frame header
and the first scan header that names the component: R29 says it "holds no value". Nothing is known of it. -/
opaque Config.freeNibble : Nat → Nibble

end Sys2Proof
end

