-- ==== Sys2Proof/Syntax.lean ====
section
/-! DEFINITION. The instructions of JPEG-MSP: one constructor per mnemonic of `spec/opcode_table.json`
(`30_encoding.md` R113, R120), and the operand shapes of the segments (`30_encoding.md` R102 to R110).

A marker instruction is its code byte alone: the segment behind it stands in the stream and is read by the
instruction's own meaning, which may have to wait for it (log entry 2). -/

namespace Sys2Proof

/-- The opcode map of R113 (escapes, markers) and the command port of R120. -/
inductive Instr where
  -- escapes of the scanner, R115, R143, R144
  | stuff
  | fill
  -- informational, R249
  | tem
  -- reserved codes 0x02..0xBF, R251
  | res (code : Byte)
  -- frame headers, R163 to R176, with the two table codes that lie among them
  | sof0
  | sof1
  | sof2
  | sof3
  | dht
  | sof5
  | sof6
  | sof7
  | jpg
  | sof9
  | sof10
  | sof11
  | dac
  | sof13
  | sof14
  | sof15
  -- restart markers, R241 to R248
  | rst0
  | rst1
  | rst2
  | rst3
  | rst4
  | rst5
  | rst6
  | rst7
  -- R161, R283, R177, R190, R240, R193, R252, R253
  | soi
  | eoi
  | sos
  | dqt
  | dnl
  | dri
  | dhp
  | exp
  -- application extensions, R220 to R238
  | app0
  | app1
  | app2
  | app3
  | app4
  | app5
  | app6
  | app7
  | app8
  | app9
  | app10
  | app11
  | app12
  | app13
  | app14
  | app15
  -- codes of JPEG extensions, R254 to R267, and the comment, R239
  | jpg0
  | jpg1
  | jpg2
  | jpg3
  | jpg4
  | jpg5
  | jpg6
  | jpg7
  | jpg8
  | jpg9
  | jpg10
  | jpg11
  | jpg12
  | jpg13
  | com
  -- commands, R281, R288, R289, R320
  | nop
  | resetStream
  | readMarkers
  | readRestartMarker
  deriving DecidableEq, Repr

/-- One component of a frame header (R102: `C_i`, `H_i`, `V_i`, `Tq_i`). -/
structure FrameComponent where
  id              : Byte
  horizSampling   : Nibble
  vertSampling    : Nibble
  quantTableIndex : Byte
  deriving DecidableEq, Repr

/-- The operands of a frame header (R102: `Pr`, `Y`, `X`, the components). `Nf` is the number of components. -/
structure FrameOperands where
  precision  : Byte
  height     : Half
  width      : Half
  components : List FrameComponent
  deriving DecidableEq, Repr

/-- One component of a scan header (R103: `Cs_i`, `Td_i`, `Ta_i`). -/
structure ScanComponent where
  selector : Byte
  dcTable  : Nibble
  acTable  : Nibble
  deriving DecidableEq, Repr

/-- The operands of a scan header (R103). `Ns` is the number of components. -/
structure ScanOperands where
  components    : List ScanComponent
  spectralStart : Byte
  spectralEnd   : Byte
  approxHigh    : Nibble
  approxLow     : Nibble
  deriving DecidableEq, Repr

/-- One quantisation-table definition (R104): the precision flag `Pq`, the index `Tq` and the 64
coefficients in the order of the stream (zigzag order). -/
structure QuantDef where
  precision : Nibble
  table     : Fin 4
  coeffs    : List Half
  deriving DecidableEq, Repr

/-- One Huffman-table definition (R105): the class `Tc` (0 DC, 1 AC), the index `Th`, the sixteen counts
`B_1 .. B_16` and the symbol values in the order of the stream. -/
structure HuffDef where
  bank   : Fin 2
  table  : Fin 4
  counts : Vector Byte 16
  values : List Byte
  deriving DecidableEq, Repr

/-- One arithmetic-conditioning entry (R106): index 0..15 is a DC-class table, 16..31 an AC-class table. -/
structure DacEntry where
  index : Fin 32
  value : Byte
  deriving DecidableEq, Repr

/-- The fourteen fixed payload bytes of a recognised application extension 0, behind its signature (R108). -/
structure JfifOperands where
  major       : Byte
  minor       : Byte
  densityUnit : Byte
  xDensity    : Half
  yDensity    : Half
  thumbWidth  : Byte
  thumbHeight : Byte
  deriving DecidableEq, Repr

/-- The twelve fixed payload bytes of a recognised application extension 14, behind its signature (R109). -/
structure AdobeOperands where
  version   : Half
  flags0    : Half
  flags1    : Half
  transform : Byte
  deriving DecidableEq, Repr

end Sys2Proof
end

