-- ==== Sys2Proof/Machine/State.lean ====
section
/-! DEFINITION. The state of JPEG-MSP as plain data: the elements S1 to S38 of `10_state.md` R20, the byte source and
the ports the core works with (`20_memory.md` R70, `30_encoding.md` R120, R121), the construction-time
configuration (R47), and the model's own fields for a command in progress (log entry 1) and for free values
(log entry 6). -/

namespace Sys2Proof.Machine

/-- The MarkerReader state `rstate` (R23). -/
inductive ReaderState where
  | awaitingStartOfImage
  | haveStartOfImage
  | haveFrameHeader
  | inScan
  deriving DecidableEq, Repr

/-- The 2-bit code of a reader state (R23). -/
def ReaderState.code : ReaderState → BitVec 2
  | .awaitingStartOfImage => 0
  | .haveStartOfImage => 1
  | .haveFrameHeader => 2
  | .inScan => 3

/-- The twelve fatal causes (`60_exceptions.md` R341). -/
inductive FatalCause where
  | duplicateStartOfImage
  | duplicateFrameHeader
  | scanBeforeFrame
  | emptyImage
  | badLength
  | unknownComponent
  | badTableIndex
  | badArithBounds
  | unsupportedFrameVariant
  | unknownMarker
  | noStartOfImage
  | badHuffTable
  deriving DecidableEq, Repr

/-- The `fatalCode` of a cause (R341). Code 0 is "no fatal error". -/
def FatalCause.code : FatalCause → BitVec 4
  | .duplicateStartOfImage => 1
  | .duplicateFrameHeader => 2
  | .scanBeforeFrame => 3
  | .emptyImage => 4
  | .badLength => 5
  | .unknownComponent => 6
  | .badTableIndex => 7
  | .badArithBounds => 8
  | .unsupportedFrameVariant => 9
  | .unknownMarker => 10
  | .noStartOfImage => 11
  | .badHuffTable => 12

/-- What `raise Fatal(cause, i0, i1)` carries: the cause and its two 32-bit information words (R341 with D23, R357). -/
structure FatalError where
  cause : FatalCause
  info0 : InfoWord
  info1 : InfoWord
  deriving DecidableEq, Repr

/-- The fatal latch: S4, S5, S6, the information registers of 16 bits each (R20, R25). -/
structure FatalLatch where
  fatal : Bool
  code  : BitVec 4
  info0 : Half
  info1 : Half
  deriving DecidableEq, Repr

/-- The latch clear: all its registers 0 (R25, R44). -/
def FatalLatch.clear : FatalLatch := { fatal := false, code := 0, info0 := 0, info1 := 0 }

/-- The four event kinds (R354). -/
inductive EventKind where
  | extraneousData
  | jfifMajorMismatch
  | badThumbnailSize
  | mustResync
  deriving DecidableEq, Repr

/-- The numeric code of an event kind (R354). -/
def EventKind.code : EventKind → Nat
  | .extraneousData => 1
  | .jfifMajorMismatch => 2
  | .badThumbnailSize => 3
  | .mustResync => 4

/-- One record of the event log: `(kind, a, b)` (R46, R354). -/
structure Event where
  kind : EventKind
  a    : Count
  b    : Count
  deriving DecidableEq, Repr

/-- One record of S15 `frameComponents` (R29). `scanned` says that a scan header has named the component, which R21
makes the guard of `dcTableIndex` and `acTableIndex`; until then these two are free values (log entry 6). -/
structure Component where
  id              : Byte
  horizSampling   : Nibble
  vertSampling    : Nibble
  quantTableIndex : Byte
  dcTableIndex    : Nibble
  acTableIndex    : Nibble
  scanned         : Bool
  deriving DecidableEq, Repr

/-- S10 to S15: the one accepted frame header (R28, R29). Only the entries `0 .. componentCount - 1` of
`components` exist. -/
structure FrameRegs where
  marker         : Byte
  precision      : Byte
  height         : Half
  width          : Half
  componentCount : Byte
  components     : List Component
  deriving DecidableEq, Repr

/-- S16 to S19: the most recent accepted scan header (R30). Entries of `componentIndex` from `componentCount` on hold
no value and are not stored (log entry 7). -/
structure ScanRegs where
  componentCount : BitVec 3
  componentIndex : List Byte
  spectralStart  : Byte
  spectralEnd    : Byte
  approxHigh     : Nibble
  approxLow      : Nibble
  deriving DecidableEq, Repr

/-- A quantisation table in natural order (R34). -/
abbrev QuantTable := Vector Half 64

/-- S23, S24: the quantisation tables with their `defined` flags (R34). -/
structure QuantRegs where
  defined : Vector Bool 4
  tables  : Vector QuantTable 4
  deriving DecidableEq, Repr

/-- One Huffman table: its entries of S25 to S28 (R35). `bits[l - 1]` is `huffBits[c][t][l]`. Entries of `values` from
`symCount` on hold no value and are not stored (log entry 7). -/
structure HuffTable where
  defined  : Bool
  bits     : Vector Byte 16
  symCount : BitVec 9
  values   : List Byte
  deriving DecidableEq, Repr

/-- The two banks (0 DC, 1 AC) of four Huffman tables (R35). -/
abbrev HuffRegs := Vector (Vector HuffTable 4) 2

/-- S29, S30: the arithmetic-conditioning parameters (R36). -/
structure ArithRegs where
  dcLow  : Vector Nibble 16
  dcHigh : Vector Nibble 16
  acK    : Vector Byte 16
  deriving DecidableEq, Repr

/-- S32, S33, S34: the JFIF registers (R38). -/
structure JfifRegs where
  saw         : Bool
  major       : Byte
  minor       : Byte
  densityUnit : Byte
  xDensity    : Half
  yDensity    : Half
  deriving DecidableEq, Repr

/-- S35, S36, S37: the Adobe registers (R39). -/
structure AdobeRegs where
  saw       : Bool
  version   : Half
  flags0    : Half
  flags1    : Half
  transform : Byte
  deriving DecidableEq, Repr

/-- The results of the result port (`30_encoding.md` R121). -/
inductive Result where
  | idle
  | suspended
  | reachedScanStart
  | reachedEndOfStream
  | fatalError
  | restartOk
  | resetDone
  deriving DecidableEq, Repr

/-- The 3-bit result code (R121). -/
def Result.code : Result → BitVec 3
  | .idle => 0
  | .suspended => 1
  | .reachedScanStart => 2
  | .reachedEndOfStream => 3
  | .fatalError => 4
  | .restartOk => 5
  | .resetDone => 6

/-- The byte source as the core sees it (`20_memory.md` R70): the bytes of the stream by position, the number
supplied so far, and the end-of-data flag, which the core ignores (R76). `bytes` is in the canonical form
`Memory.wf`: positions strictly rising, none of them holding what an unlisted position reads as. -/
structure ByteSource where
  bytes : List Host.Cell
  avail : Nat
  eod   : Bool
  deriving DecidableEq, Repr

/-- Where READ_RESTART_MARKER stands while it scans: looking for the first marker (R320), or scanning forward inside
`Resync` (R323). -/
inductive RestartPhase where
  | seeking
  | resyncing
  deriving DecidableEq, Repr

/-- The command in progress (log entry 1). `run` is the scanner's Cursor relative to `pos`: how many further
`0xFF` bytes of the run that starts at `pos` have been swallowed (R142, R143). -/
inductive Activity where
  | idle
  | reading (run : Nat)
  | restarting (phase : RestartPhase) (run : Nat)
  deriving DecidableEq, Repr

/-- What can reach the core from outside between two commands (R7; `20_memory.md` R72; `45_restart_resync.md` R327; R41). -/
inductive Input where
  /-- A command code on the command port (R120). -/
  | command (code : BitVec 2)
  /-- The byte source supplies the next bytes of the stream (R72). -/
  | fill (bytes : List Byte)
  /-- The byte source accounts for skipped bytes without making them readable (R73, R387). -/
  | account (n : Nat)
  /-- The byte source signals end of data (R70, R76; what may follow it: log entry 29). -/
  | endOfData
  /-- The entropy stage consumes coded data (R327 (a)). -/
  | consume (n : Nat)
  /-- The entropy stage hands over a marker it ran into (R327 (b)). -/
  | handOver (code : Byte)
  /-- An out-of-scope stage writes `colorSpace` (R37, R41). -/
  | setColorSpace (value : Byte)
  deriving DecidableEq, Repr

/-- The state of JPEG-MSP. -/
structure State where
  /-- S1, the program counter (R22). -/
  pos                : Position
  /-- S2 (R23). -/
  rstate             : ReaderState
  /-- S3; 0 means none pending (R24). -/
  pendingMarker      : Byte
  /-- S4 to S6 (R25). -/
  latch              : FatalLatch
  /-- S7, saturating (R26). -/
  discardedByteCount : Count
  /-- S8 (R27). -/
  sawStartOfImage    : Bool
  /-- S9 (R27). -/
  sawFrameHeader     : Bool
  /-- S10 to S15 (R28, R29). -/
  frame              : FrameRegs
  /-- S16 to S19 (R30). -/
  scan               : ScanRegs
  /-- S20, saturating (R31). -/
  scanCount          : Count
  /-- S21 (R32). -/
  nextRestartIndex   : BitVec 3
  /-- S22 (R33). -/
  restartInterval    : Half
  /-- S23, S24 (R34). -/
  quant              : QuantRegs
  /-- S25 to S28 (R35). -/
  huff               : HuffRegs
  /-- S29, S30 (R36). -/
  arith              : ArithRegs
  /-- S31 (R37). -/
  colorSpace         : Byte
  /-- S32 to S34 (R38). -/
  jfif               : JfifRegs
  /-- S35 to S37 (R39). -/
  adobe              : AdobeRegs
  /-- S38, append-only (R46). -/
  events             : List Event
  /-- The byte source (R70). -/
  source             : ByteSource
  /-- The construction-time configuration, never written (R9, R47; log entry 8). -/
  config             : RecognizerConfig
  /-- What the outside does next, oldest first (log entry 9). -/
  inputs             : List Input
  /-- The result port: the result of the last command that ended (R121; log entry 12). -/
  result             : Result
  /-- The command in progress (log entry 1). -/
  activity           : Activity
  /-- How many free values have been handed out (log entry 6). -/
  freeCount          : Nat
  deriving DecidableEq, Repr

/-- Why the machine is stuck. -/
inductive Fault where
  /-- Raised by the dispatcher when the pending marker is `0xFF`, which R282 says cannot occur and which no run from
  reset reaches (R40 (f)). Safe: the machine stops where the spec has no step (log entry 17). -/
  | pendingNotAMarker
  deriving DecidableEq, Repr

/-- Why a situation has no step: the refused situations of `60_exceptions.md` R364. -/
inductive Refusal where
  /-- Raised by an arm of `exec` whose instruction has no meaning yet. No arm raises it now. Safe. -/
  | notModelled (mnemonic : String)
  /-- Raised by READ_RESTART_MARKER with `rstate` not InScan and the latch clear (R320, R364 (a)). Safe. -/
  | restartOutsideScan
  /-- Raised by whatever would carry `pos` past `2^64 - 1` (R22, R364 (c)). Safe. -/
  | positionOverflow
  /-- Raised by an entropy-stage step outside the liberties of R327 (R364 (e)). Safe. -/
  | entropyLiberty
  /-- Raised when the byte source accounts for bytes at or beyond `pos` without supplying them (R75, R364 (f)). Safe. -/
  | sourceDuty
  /-- Raised by a command issued while another is running (R120, R364 (g)), and by a host query, other than of the event log,
  while a command is running (R42; log entry 30). Safe. -/
  | commandWhileRunning
  /-- Raised by a host query of an element that holds no value, never by an instruction: R21 says that a model should
  "fault or refuse", R364 (d) and U6 of `93_implementation_defined.md` that the read is refused. Safe. -/
  | noValue
  deriving DecidableEq, Repr

/-- A byte source bound to a stream of which nothing has been supplied yet (R383). -/
def ByteSource.empty : ByteSource := { bytes := [], avail := 0, eod := false }

/-- The frame registers after reset: not allocated (R44); log entry 4 for the values. -/
def FrameRegs.reset : FrameRegs :=
  { marker := 0, precision := 0, height := 0, width := 0, componentCount := 0, components := [] }

/-- The scan registers after reset (R44; log entry 4). -/
def ScanRegs.reset : ScanRegs :=
  { componentCount := 0, componentIndex := [], spectralStart := 0, spectralEnd := 0, approxHigh := 0, approxLow := 0 }

/-- The quantisation tables at power-on: none defined (R44; log entry 4). -/
def QuantRegs.reset : QuantRegs :=
  { defined := Vector.replicate 4 false, tables := Vector.replicate 4 (Vector.replicate 64 0) }

/-- A Huffman table at power-on: not defined (R44; log entry 4). -/
def HuffTable.reset : HuffTable :=
  { defined := false, bits := Vector.replicate 16 0, symCount := 0, values := [] }

/-- The Huffman tables at power-on (R44; log entry 4). -/
def HuffRegs.reset : HuffRegs := Vector.replicate 2 (Vector.replicate 4 HuffTable.reset)

/-- The arithmetic parameters after reset (R44; log entry 4). -/
def ArithRegs.reset : ArithRegs :=
  { dcLow := Vector.replicate 16 0, dcHigh := Vector.replicate 16 0, acK := Vector.replicate 16 0 }

/-- The JFIF registers cleared (R38, R44; log entry 4). -/
def JfifRegs.cleared : JfifRegs :=
  { saw := false, major := 0, minor := 0, densityUnit := 0, xDensity := 0, yDensity := 0 }

/-- The Adobe registers cleared (R39, R44; log entry 4). -/
def AdobeRegs.cleared : AdobeRegs :=
  { saw := false, version := 0, flags0 := 0, flags1 := 0, transform := 0 }

/-- The machine right after power-on reset (R44, R380, R383): column "power-on reset" of R44; where that column says
"no value", the value log entry 4 names; the core idle, no byte supplied, nothing on the ports. -/
def State.reset : State :=
  { pos := 0
    rstate := .awaitingStartOfImage
    pendingMarker := 0
    latch := FatalLatch.clear
    discardedByteCount := 0
    sawStartOfImage := false
    sawFrameHeader := false
    frame := FrameRegs.reset
    scan := ScanRegs.reset
    scanCount := 0
    nextRestartIndex := 0
    restartInterval := 0
    quant := QuantRegs.reset
    huff := HuffRegs.reset
    arith := ArithRegs.reset
    colorSpace := 0
    jfif := JfifRegs.cleared
    adobe := AdobeRegs.cleared
    events := []
    source := ByteSource.empty
    config := RecognizerConfig.default
    inputs := []
    result := .idle
    activity := .idle
    freeCount := 0 }

end Sys2Proof.Machine
end

