-- ==== Sys2Proof/Machine/Tables.lean ====
section
/-! DEFINITION. The constants of the block: the zigzag permutation (`30_encoding.md` R117), the two signatures (R118) and
the numeric parameters the decoders compare with (`00_scope.md` R8). -/

namespace Sys2Proof.Machine

/-- `ZIGZAG[i]`: the natural-order position of the i-th coefficient in stream order (R117). -/
def zigzag : List (Fin 64) :=
  [ 0,  1,  8, 16,  9,  2,  3, 10] ++
  [17, 24, 32, 25, 18, 11,  4,  5] ++
  [12, 19, 26, 33, 40, 48, 41, 34] ++
  [27, 20, 13,  6,  7, 14, 21, 28] ++
  [35, 42, 49, 56, 57, 50, 43, 36] ++
  [29, 22, 15, 23, 30, 37, 44, 51] ++
  [58, 59, 52, 45, 38, 31, 39, 46] ++
  [53, 60, 61, 54, 47, 55, 62, 63]

/-- `JFIF_SIG`, "JFIF" and a zero byte (R118). -/
def jfifSignature : List Byte := [0x4A, 0x46, 0x49, 0x46, 0x00]

/-- `ADOBE_SIG`, "Adobe" (R118). -/
def adobeSignature : List Byte := [0x41, 0x64, 0x6F, 0x62, 0x65]

/-- `APP0_FIXED_LEN` (R8). -/
def app0FixedLength : Nat := 14

/-- `APP14_FIXED_LEN` (R8). -/
def app14FixedLength : Nat := 12

/-- `JFIF_EXPECTED_MAJOR` (R8). -/
def jfifExpectedMajor : Byte := 1

/-- `HUFF_MAX_SYMBOLS` (R8). -/
def huffMaxSymbols : Nat := 256

/-- The code of restart marker 0; restart marker k has the code `0xD0 + k` (R112 (h)). -/
def restartBase : Byte := 0xD0

/-- The lowest frame-header code (R322). -/
def lowestFrameCode : Byte := 0xC0

end Sys2Proof.Machine
end

