-- ==== Sys2Proof/Machine/Ops.lean ====
section
/-! DEFINITION. The shared operations: the stream memory and its read primitives (`20_memory.md` R70 to R76,
`00_scope.md` R13), moving `pos` (R22), ending a command (R15, R121), TAKING a fatal error (`60_exceptions.md` R357) and
the return from it (RESET_STREAM, R288, R358), the event log (R46), and how a decoder's outcome becomes a step (R281). -/

namespace Sys2Proof.Machine

/-! ### The stream memory -/

/-- What an unlisted stream position reads as (log entry 3). -/
def Memory.blank : Byte := 0

/-- The canonical form: positions strictly rising, and no listed byte equal to what an unlisted position reads as. -/
abbrev Memory.wf (m : List Host.Cell) : Prop :=
  m.Pairwise (fun c d => c.1 < d.1) ∧ ∀ c ∈ m, c.2 ≠ Memory.blank

/-- The byte at one position. -/
def Memory.read : List Host.Cell → Nat → Byte
  | [], _ => Memory.blank
  | (k, v) :: rest, a => if k = a then v else Memory.read rest a

/-- Write one byte, keeping the canonical form. -/
def Memory.write : List Host.Cell → Nat → Byte → List Host.Cell
  | [], a, b => if b = Memory.blank then [] else [(a, b)]
  | (k, v) :: rest, a, b =>
    if a < k then
      if b = Memory.blank then (k, v) :: rest else (a, b) :: (k, v) :: rest
    else if a = k then
      if b = Memory.blank then rest else (a, b) :: rest
    else (k, v) :: Memory.write rest a b

/-- Write bytes at successive positions. -/
def Memory.writeBytes : List Host.Cell → Nat → List Byte → List Host.Cell
  | m, _, [] => m
  | m, a, b :: bs => Memory.writeBytes (Memory.write m a b) (a + 1) bs

/-- Forget the bytes of `n` positions from `a` on: they read as unlisted. -/
def Memory.erase (m : List Host.Cell) (a n : Nat) : List Host.Cell :=
  m.filter fun c => decide (c.1 < a ∨ a + n ≤ c.1)

/-! ### Byte order and fields -/

/-- `BE16(b0, b1)`, the first byte more significant (R10, R79). -/
def be16 (b0 b1 : Byte) : Half := b0 ++ b1

/-- `b[7:4]` (R10). -/
def highNibble (b : Byte) : Nibble := b.extractLsb' 4 4

/-- `b[3:0]` (R10). -/
def lowNibble (b : Byte) : Nibble := b.extractLsb' 0 4

/-! ### Read primitives -/

/-- `Need(a, n)` returns: the `n` bytes from position `a` on have been supplied (R13). -/
def ByteSource.has (src : ByteSource) (a n : Nat) : Bool := a + n ≤ src.avail

/-- `Peek(a)`: the byte at `a`, or nothing where the primitive suspends (R13, R76). -/
def ByteSource.peek (src : ByteSource) (a : Nat) : Option Byte :=
  if a < src.avail then some (Memory.read src.bytes a) else none

/-- `MemRead(a, 2)`: the 16-bit big-endian value at `a`, or nothing where the primitive suspends (R13). -/
def ByteSource.half (src : ByteSource) (a : Nat) : Option Half :=
  if src.has a 2 then some (be16 (Memory.read src.bytes a) (Memory.read src.bytes (a + 1))) else none

/-- The `n` bytes of the stream from position `a` on; used only where `has` holds. -/
def ByteSource.take (src : ByteSource) (a : Nat) : Nat → List Byte
  | 0 => []
  | n + 1 => Memory.read src.bytes a :: src.take (a + 1) n

/-- `fill`: the byte source supplies the next bytes of the stream (R72). -/
def ByteSource.fill (src : ByteSource) (bs : List Byte) : ByteSource :=
  { src with bytes := Memory.writeBytes src.bytes src.avail bs, avail := src.avail + bs.length }

/-! ### The program counter -/

/-- `pos <- p`, or nothing where `p` passes `2^64 - 1` (R22, R364 (c)). -/
def State.moveTo (s : State) (p : Nat) : Option State :=
  if p < 2 ^ 64 then some { s with pos := BitVec.ofNat 64 p } else none

/-- `pos <- pos + n`. -/
def State.advance (s : State) (n : Nat) : Option State := s.moveTo (s.pos.toNat + n)

/-! ### Results, events, fatal errors -/

/-- The command in progress ends with a result (R15, R121). -/
def State.finish (s : State) (r : Result) : State := { s with result := r, activity := .idle }

/-- `suspend`: the command ends with `Suspended`; nothing else is written (R15, R356). -/
def State.suspend (s : State) : State := s.finish .suspended

/-- `emit Kind(a, b)` (R16, R46). -/
def State.emit (s : State) (kind : EventKind) (a b : Count) : State :=
  { s with events := s.events ++ [{ kind := kind, a := a, b := b }] }

/-- The fatal error of a cause and the two values that the table of R341 gives it, each of which fits in 16 bits. Every
`raise` of the model is built by it. -/
def fatalError (cause : FatalCause) (info0 info1 : Half) : FatalError :=
  { cause := cause, info0 := info0.setWidth 32, info1 := info1.setWidth 32 }

/-- The latch a fatal error writes (R357 step 2). Its registers have 16 bits (R25) and take the low half of an information
word; `fatalError_latched` says that no value is cut (log entry 13). -/
def FatalError.latched (f : FatalError) : FatalLatch :=
  { fatal := true, code := f.cause.code, info0 := f.info0.setWidth 16, info1 := f.info1.setWidth 16 }

/-- `raise Fatal(cause, i0, i1)`, the entry sequence of R357: the latch is written and the command in progress ends with
`FatalError`. `pos` and `pendingMarker` keep their values and stand for the saved program counter and cause of the
failing marker; there is no handler address: control returns to the host. -/
def State.raiseFatal (s : State) (f : FatalError) : State :=
  { s with latch := f.latched }.finish .fatalError

/-- The only return from a fatal error (R358): RESET_STREAM, column "RESET_STREAM" of R44. Tables, their `defined`
flags and the event log are kept; everything else gets its power-on value (R381); the byte source is bound to a new
stream of which nothing has been supplied yet (R383; log entry 10). The model's own fields are kept. -/
def State.resetStream (s : State) : State :=
  { State.reset with
      quant := s.quant
      huff := s.huff
      events := s.events
      config := s.config
      inputs := s.inputs
      freeCount := s.freeCount }

/-! ### From a decoder's outcome to a step -/

/-- What a decoder tells the dispatcher on success (R281, R282). -/
inductive Signal where
  | proceed
  | scanStart
  | endOfStream
  deriving DecidableEq, Repr

/-- How a decoder ends (R15, R160): committed, suspended, raising a fatal error, or in the refused situation that `pos`
would pass `2^64 - 1`. -/
inductive Decoded where
  | done (s : State) (signal : Signal)
  | suspend
  | fatal (f : FatalError)
  | overflow

/-- The outcome of one step of the machine. -/
abbrev StepOutcome := Host.Outcome State Fault Refusal

/-- The commit that ends a decoder: it moves `pos` and succeeds, or the move is refused (R160 (f)). -/
def Decoded.commit (moved : Option State) (signal : Signal := .proceed) : Decoded :=
  match moved with
  | some s => .done s signal
  | none => .overflow

/-- The body of READ_MARKERS' loop behind `Dispatch` (R281): on success the pending code is cleared, and a scan header or
an end-of-stream marker ends the command; a suspension keeps the code pending; a fatal error is taken. -/
def State.complete (s : State) (d : Decoded) : StepOutcome :=
  match d with
  | .done s' .proceed => .next { s' with pendingMarker := 0 }
  | .done s' .scanStart => .next ({ s' with pendingMarker := 0 }.finish .reachedScanStart)
  | .done s' .endOfStream => .next ({ s' with pendingMarker := 0 }.finish .reachedEndOfStream)
  | .suspend => .next s.suspend
  | .fatal f => .next (s.raiseFatal f)
  | .overflow => .refused .positionOverflow

/-- A move of `pos` that is a step of its own: refused past `2^64 - 1`. -/
def orOverflow (moved : Option State) : StepOutcome :=
  match moved with
  | some s => .next s
  | none => .refused .positionOverflow

/-- A command runs only when no other is in progress (R120, R364 (g)). -/
def State.whenIdle (s : State) (k : StepOutcome) : StepOutcome :=
  match s.activity with
  | .idle => k
  | _ => .refused .commandWhileRunning

end Sys2Proof.Machine
end

