-- ==== Sys2Proof/Machine/Flags.lean ====
section
/-! DEFINITION. The flags and counters: the saturating counters (`10_state.md` R26, R31, `00_scope.md` R11), the seen flags with
the reader state they go with (R23, R27), and the latch's conditions (R25). There are no condition codes. -/

namespace Sys2Proof.Machine

/-- `sat32(x + n)` (R11, R119). -/
def sat32Add (x : Count) (n : Nat) : Count := BitVec.ofNat 32 (min (x.toNat + n) 0xFFFFFFFF)

/-- Garbage is counted; the count saturates (R26). -/
def State.countDiscarded (s : State) (n : Nat) : State :=
  { s with discardedByteCount := sat32Add s.discardedByteCount n }

/-- "Any bytes were discarded" (R26, R142). -/
def State.anyDiscarded (s : State) : Bool := s.discardedByteCount != 0

/-- A marker code is pending (R24). -/
def State.hasPending (s : State) : Bool := s.pendingMarker != 0

/-- The flag a start-of-image sets, and the reader state that goes with it (R27, R161). -/
def State.markStartOfImage (s : State) : State :=
  { s with sawStartOfImage := true, rstate := .haveStartOfImage }

/-- The flag a frame header sets, and the reader state that goes with it (R27, R162). -/
def State.markFrameHeader (s : State) : State :=
  { s with sawFrameHeader := true, rstate := .haveFrameHeader }

/-- What an accepted scan header does to the counters and the reader state (R31, R32, R177). -/
def State.markScan (s : State) : State :=
  { s with nextRestartIndex := 0, scanCount := sat32Add s.scanCount 1, rstate := .inScan }

end Sys2Proof.Machine
end

