-- ==== Sys2Proof/WellFormed.lean ====
section
/-! DEFINITION. Which instructions and operands are well formed: the ranges of `30_encoding.md` R102 to R109 and
R113. Each check is decidable; an ill-formed term for each of them stands in `Tests/Slice0.lean`. -/

namespace Sys2Proof

/-- An instruction is well formed when its code byte is one the opcode map gives its row: only RES carries a
code, and its codes are `0x02..0xBF` (R113, R251). -/
abbrev Instr.wf : Instr → Prop
  | .res code => 0x02 ≤ code ∧ code ≤ 0xBF
  | _ => True

/-- A frame header the decoder accepts (R162): height, width and component count are positive and the
count fits its byte. -/
abbrev FrameOperands.wf (o : FrameOperands) : Prop :=
  o.height ≠ 0 ∧ o.width ≠ 0 ∧ 0 < o.components.length ∧ o.components.length ≤ 255

/-- A scan header has one to four components (R103, R177). -/
abbrev ScanOperands.wf (o : ScanOperands) : Prop :=
  1 ≤ o.components.length ∧ o.components.length ≤ 4

/-- A quantisation definition has 64 coefficients, each one byte when the precision flag is 0 (R104). -/
abbrev QuantDef.wf (d : QuantDef) : Prop :=
  d.coeffs.length = 64 ∧ (d.precision = 0 → ∀ q ∈ d.coeffs, q.toNat < 256)

/-- The number of symbol values a Huffman definition's counts announce (R105, R112 (e)). -/
def symbolCount (counts : List Byte) : Nat := (counts.map BitVec.toNat).sum

/-- A Huffman definition carries exactly the symbols its counts announce, at most 256 (R105, R191). -/
abbrev HuffDef.wf (d : HuffDef) : Prop :=
  d.values.length = symbolCount d.counts.toList ∧ symbolCount d.counts.toList ≤ 256

/-- A DC-class entry has its low bound (low nibble) at most its high bound (high nibble) (R106, R192). -/
abbrev DacEntry.wf (e : DacEntry) : Prop :=
  e.index.val < 16 → e.value.toNat % 16 ≤ e.value.toNat / 16

end Sys2Proof
end

