-- ==== Sys2Proof/Machine/Operands.lean ====
section
/-! DEFINITION. The operand forms: reading the fields of every segment format (`30_encoding.md` R101 to R112) with the
tests of its decoder in the order the decoder makes them (`41_frame_and_scan_headers.md`, `42_table_segments.md`,
`43_app_skip_and_other_markers.md`), and the inverse, the assembler of `30_encoding.md` R122 and R123.

A reader takes the code, the length field `L` and the payload `p[0 .. L-3]`, and answers the operands or the fatal error the
first failing test raises. -/

namespace Sys2Proof.Machine

/-! ### Fields -/

/-- A byte widened to an information register or a coefficient (R11 `zext_16`). -/
def widen (b : Byte) : Half := b.setWidth 16

/-- A nibble pair packed into a byte, the first the more significant (R112 (b)). -/
def packNibbles (high low : Nibble) : Byte := high ++ low

/-- The two bytes of a 16-bit field, the more significant first (R79). -/
def halfBytes (h : Half) : List Byte := [h.extractLsb' 8 8, h.extractLsb' 0 8]

/-- Successive 16-bit fields (R104). -/
def halves : List Byte → List Half
  | b0 :: b1 :: rest => be16 b0 b1 :: halves rest
  | _ => []

/-- `Fatal(BadLength, code, L)` (R346). -/
def badLength (code : Byte) (length : Half) : FatalError :=
  fatalError .badLength (widen code) length

/-- `Fatal(BadTableIndex, code, index)` (R348). -/
def badTableIndex (code : Byte) (index : Half) : FatalError :=
  fatalError .badTableIndex (widen code) index

/-! ### Frame header, R102, R162 -/

/-- The components of a frame header: three bytes each (R102). -/
def frameComponents : List Byte → List FrameComponent
  | id :: hv :: tq :: rest =>
    { id := id, horizSampling := highNibble hv, vertSampling := lowNibble hv, quantTableIndex := tq } ::
      frameComponents rest
  | _ => []

/-- The payload of a frame header with its tests, in the order of R162. -/
def readFrame (code : Byte) (length : Half) : List Byte → Except FatalError FrameOperands
  | pr :: y1 :: y0 :: x1 :: x0 :: nf :: rest =>
    if be16 y1 y0 = 0 ∨ be16 x1 x0 = 0 ∨ nf = 0 then
      .error (fatalError .emptyImage (be16 y1 y0) (be16 x1 x0))
    else if length.toNat ≠ 3 * nf.toNat + 8 then .error (badLength code length)
    else .ok { precision := pr, height := be16 y1 y0, width := be16 x1 x0, components := frameComponents rest }
  | _ => .error (badLength code length)

/-! ### Scan header, R103, R177 -/

/-- The components of a scan header, two bytes each, and the bytes behind them (R103). -/
def scanComponents : Nat → List Byte → List ScanComponent × List Byte
  | n + 1, sel :: t :: rest =>
    let (cs, behind) := scanComponents n rest
    ({ selector := sel, dcTable := highNibble t, acTable := lowNibble t } :: cs, behind)
  | _, rest => ([], rest)

/-- The payload of a scan header with its length tests (R177). The last line is never reached: the length
equation leaves exactly three bytes behind the components. -/
def readScan (length : Half) : List Byte → Except FatalError ScanOperands
  | ns :: rest =>
    if ns.toNat < 1 ∨ 4 < ns.toNat ∨ length.toNat ≠ 2 * ns.toNat + 6 then .error (badLength 0xDA length)
    else match scanComponents ns.toNat rest with
      | (cs, [ss, se, a]) =>
        .ok { components := cs, spectralStart := ss, spectralEnd := se, approxHigh := highNibble a, approxLow := lowNibble a }
      | _ => .error (badLength 0xDA length)
  | [] => .error (badLength 0xDA length)

/-- For every scan component the least index of a frame component with its selector, or the fatal error of the first
selector that has none (R177, R347). -/
def resolveSelectors (frame : List Component) : List ScanComponent → Except FatalError (List Nat)
  | [] => .ok []
  | c :: cs =>
    match frame.findIdx? (fun f => f.id == c.selector) with
    | none => .error (fatalError .unknownComponent (widen c.selector) 0)
    | some j =>
      match resolveSelectors frame cs with
      | .error f => .error f
      | .ok js => .ok (j :: js)

/-! ### Quantisation tables, R104, R190 -/

/-- The bytes the coefficients of a definition take (R104). -/
def coefficientBytes (precision : Nibble) : Nat := if precision = 0 then 64 else 128

/-- The coefficients of a definition from its bytes (R104, R190). -/
def coefficients (precision : Nibble) (bytes : List Byte) : List Half :=
  if precision = 0 then bytes.map widen else halves bytes

/-- The definitions of a quantisation segment with their tests, in the order of R190. The first argument bounds the number of
definitions; the length of the payload always suffices (`Laws.readQuantDefs_fuel`). -/
def readQuantDefs (length : Half) : Nat → List Byte → Except FatalError (List QuantDef)
  | _, [] => .ok []
  | 0, _ :: _ => .error (badLength 0xDB length)
  | fuel + 1, b :: rest =>
    if h : (lowNibble b).toNat < 4 then
      if rest.length < coefficientBytes (highNibble b) then .error (badLength 0xDB length)
      else match readQuantDefs length fuel (rest.drop (coefficientBytes (highNibble b))) with
        | .error f => .error f
        | .ok defs =>
          .ok ({ precision := highNibble b
                 table := ⟨(lowNibble b).toNat, h⟩
                 coeffs := coefficients (highNibble b) (rest.take (coefficientBytes (highNibble b))) } :: defs)
    else .error (badTableIndex 0xDB ((lowNibble b).setWidth 16))

/-! ### Huffman tables, R105, R191 -/

/-- The sum of the counts, as a natural number (R112 (e)). -/
def countSymbols (counts : List Byte) : Nat := (counts.map BitVec.toNat).sum

/-- The definitions of a Huffman segment with their tests, in the order of R191. The first argument is as in
`readQuantDefs`. -/
def readHuffDefs (length : Half) : Nat → List Byte → Except FatalError (List HuffDef)
  | _, [] => .ok []
  | 0, _ :: _ => .error (badLength 0xC4 length)
  | fuel + 1, b :: rest =>
    if h : 16 ≤ rest.length then
      let count := countSymbols (rest.take 16)
      let room := rest.length - 16
      if huffMaxSymbols < count ∨ room < count then
        .error (fatalError .badHuffTable (BitVec.ofNat 16 count) (BitVec.ofNat 16 room))
      else if hi : (highNibble b).toNat < 2 ∧ (lowNibble b).toNat < 4 then
        match readHuffDefs length fuel (rest.drop (16 + count)) with
        | .error f => .error f
        | .ok defs =>
          .ok ({ bank := ⟨(highNibble b).toNat, hi.1⟩
                 table := ⟨(lowNibble b).toNat, hi.2⟩
                 counts := ⟨(rest.take 16).toArray, by simpa using h⟩
                 values := (rest.drop 16).take count } :: defs)
      else .error (badTableIndex 0xC4 (widen b))
    else .error (badLength 0xC4 length)

/-! ### Arithmetic conditioning, R106, R192 -/

/-- The entries of an arithmetic-conditioning segment with their tests, in the order of R192. -/
def readDacEntries (length : Half) : List Byte → Except FatalError (List DacEntry)
  | [] => .ok []
  | [_] => .error (badLength 0xCC length)
  | index :: value :: rest =>
    if h : index.toNat < 32 then
      if index.toNat < 16 ∧ (highNibble value).toNat < (lowNibble value).toNat then
        .error (fatalError .badArithBounds (widen index) (widen value))
      else match readDacEntries length rest with
        | .error f => .error f
        | .ok es => .ok ({ index := ⟨index.toNat, h⟩, value := value } :: es)
    else .error (badTableIndex 0xCC (widen index))

/-! ### Application extensions, R108, R109, R220, R222 -/

/-- The fourteen examined bytes of an application extension 0, when they are the recognised form; a shorter
list is not (R220). -/
def readJfif (p : List Byte) : Option JfifOperands :=
  if p.take 5 = jfifSignature then
    match p.drop 5 with
    | [major, minor, unit, x1, x0, y1, y0, xt, yt] =>
      some { major := major, minor := minor, densityUnit := unit, xDensity := be16 x1 x0, yDensity := be16 y1 y0
             thumbWidth := xt, thumbHeight := yt }
    | _ => none
  else none

/-- The twelve examined bytes of an application extension 14, when they are the recognised form (R222). -/
def readAdobe (p : List Byte) : Option AdobeOperands :=
  if p.take 5 = adobeSignature then
    match p.drop 5 with
    | [v1, v0, f1, f0, g1, g0, t] =>
      some { version := be16 v1 v0, flags0 := be16 f1 f0, flags1 := be16 g1 g0, transform := t }
    | _ => none
  else none

/-! ### The assembler, R122, R123 -/

/-- A segment from its payload: the length field, which counts itself, then the payload (R101). -/
def assemble (payload : List Byte) : List Byte := halfBytes (BitVec.ofNat 16 (payload.length + 2)) ++ payload

/-- The three bytes of a frame component (R102). -/
def encodeFrameComponent (c : FrameComponent) : List Byte :=
  [c.id, packNibbles c.horizSampling c.vertSampling, c.quantTableIndex]

/-- The payload of a frame header (R102). -/
def encodeFrame (o : FrameOperands) : List Byte :=
  o.precision :: halfBytes o.height ++ halfBytes o.width ++ BitVec.ofNat 8 o.components.length ::
    o.components.flatMap encodeFrameComponent

/-- The two bytes of a scan component (R103). -/
def encodeScanComponent (c : ScanComponent) : List Byte := [c.selector, packNibbles c.dcTable c.acTable]

/-- The payload of a scan header (R103). -/
def encodeScan (o : ScanOperands) : List Byte :=
  BitVec.ofNat 8 o.components.length :: o.components.flatMap encodeScanComponent ++
    [o.spectralStart, o.spectralEnd, packNibbles o.approxHigh o.approxLow]

/-- The bytes of a coefficient (R104). -/
def encodeCoefficient (precision : Nibble) (q : Half) : List Byte :=
  if precision = 0 then [q.setWidth 8] else halfBytes q

/-- The bytes of a quantisation definition (R104). -/
def encodeQuantDef (d : QuantDef) : List Byte :=
  packNibbles d.precision (BitVec.ofNat 4 d.table.val) :: d.coeffs.flatMap (encodeCoefficient d.precision)

/-- The bytes of a Huffman definition (R105). -/
def encodeHuffDef (d : HuffDef) : List Byte :=
  packNibbles (BitVec.ofNat 4 d.bank.val) (BitVec.ofNat 4 d.table.val) :: d.counts.toList ++ d.values

/-- The bytes of an arithmetic-conditioning entry (R106). -/
def encodeDacEntry (e : DacEntry) : List Byte := [BitVec.ofNat 8 e.index.val, e.value]

/-- The fourteen fixed bytes of a JFIF segment (R108, R123). -/
def encodeJfif (j : JfifOperands) : List Byte :=
  jfifSignature ++ [j.major, j.minor, j.densityUnit] ++ halfBytes j.xDensity ++ halfBytes j.yDensity ++
    [j.thumbWidth, j.thumbHeight]

/-- The twelve fixed bytes of an Adobe segment (R109, R123). -/
def encodeAdobe (a : AdobeOperands) : List Byte :=
  adobeSignature ++ halfBytes a.version ++ halfBytes a.flags0 ++ halfBytes a.flags1 ++ [a.transform]

/-! ### Segments in the stream -/

/-- The common discipline of the buffered kinds (R160): the length field, the test on the length alone, the
wait for the whole declared segment, then the payload. -/
def State.buffered (s : State) (code : Byte) (lengthOk : Half → Bool) (k : Half → List Byte → Decoded) : Decoded :=
  match s.source.half s.pos.toNat with
  | none => .suspend
  | some l =>
    if lengthOk l then
      if s.source.has s.pos.toNat l.toNat then k l (s.source.take (s.pos.toNat + 2) (l.toNat - 2)) else .suspend
    else .fatal (badLength code l)

/-- The test on `L` that every buffered kind but the restart interval makes (R160 (c)). -/
def lengthAtLeastTwo (l : Half) : Bool := 2 ≤ l.toNat

/-- The operands of a segment, or its fatal error. -/
def Decoded.ofRead {α : Type} (r : Except FatalError α) (k : α → Decoded) : Decoded :=
  match r with
  | .error f => .fatal f
  | .ok a => k a

end Sys2Proof.Machine
end

