-- ==== Sys2Proof/Machine/Commands.lean ====
section
/-! DEFINITION. The commands NOP, RESET_STREAM and READ_MARKERS (`44_marker_reader.md` R281, R288, R289). The loop of
READ_MARKERS runs one marker a step while the activity is `reading` (log entry 1); `Machine/Fetch.lean` obtains the
marker, `exec` dispatches it, `State.complete` ends the turn. -/

namespace Sys2Proof.Machine

/-- NOP (R289): no state element is written; result `Idle`. -/
def execNop (s : State) : StepOutcome := s.whenIdle (.next (s.finish .idle))

/-- RESET_STREAM (R288): legal in every state, never suspends, result `ResetDone`. -/
def execResetStream (s : State) : StepOutcome := s.whenIdle (.next (s.resetStream.finish .resetDone))

/-- READ_MARKERS (R281): with the latch set it returns `FatalError` at once and changes nothing; otherwise its loop
begins. -/
def execReadMarkers (s : State) : StepOutcome :=
  s.whenIdle (if s.latch.fatal then .next (s.finish .fatalError) else .next { s with activity := .reading 0 })

end Sys2Proof.Machine
end

