-- ==== Sys2Proof/Machine/Extensions.lean ====
section
/-! DEFINITION. SegmentDecoders, part 3, first half: the application extensions, the comment and the next-line-count
segment (`43_app_skip_and_other_markers.md` R220 to R240). None of them can raise a fatal error. -/

namespace Sys2Proof.Machine

/-! ### Skip kinds, R224 -/

/-- The bytes a skip kind or a recognising decoder consumes from the length field on, on every path:
`max(L, 2)` (R221, R224). -/
def consumed (length : Half) : Nat := max length.toNat 2

/-- `SkipVariable(m)` (R224): only the two length bytes need be available; the move may pass `avail` (R73). The code plays
no part. -/
def skipVariable (s : State) : Decoded :=
  match s.source.half s.pos.toNat with
  | none => .suspend
  | some l => .commit (s.advance (consumed l))

/-- APP1, code `0xE1` (R225). -/
def execApp1 (s : State) : StepOutcome := s.complete (skipVariable s)

/-- APP2, code `0xE2` (R226). -/
def execApp2 (s : State) : StepOutcome := s.complete (skipVariable s)

/-- APP3, code `0xE3` (R227). -/
def execApp3 (s : State) : StepOutcome := s.complete (skipVariable s)

/-- APP4, code `0xE4` (R228). -/
def execApp4 (s : State) : StepOutcome := s.complete (skipVariable s)

/-- APP5, code `0xE5` (R229). -/
def execApp5 (s : State) : StepOutcome := s.complete (skipVariable s)

/-- APP6, code `0xE6` (R230). -/
def execApp6 (s : State) : StepOutcome := s.complete (skipVariable s)

/-- APP7, code `0xE7` (R231). -/
def execApp7 (s : State) : StepOutcome := s.complete (skipVariable s)

/-- APP8, code `0xE8` (R232). -/
def execApp8 (s : State) : StepOutcome := s.complete (skipVariable s)

/-- APP9, code `0xE9` (R233). -/
def execApp9 (s : State) : StepOutcome := s.complete (skipVariable s)

/-- APP10, code `0xEA` (R234). -/
def execApp10 (s : State) : StepOutcome := s.complete (skipVariable s)

/-- APP11, code `0xEB` (R235). -/
def execApp11 (s : State) : StepOutcome := s.complete (skipVariable s)

/-- APP12, code `0xEC` (R236). -/
def execApp12 (s : State) : StepOutcome := s.complete (skipVariable s)

/-- APP13, code `0xED` (R237). -/
def execApp13 (s : State) : StepOutcome := s.complete (skipVariable s)

/-- APP15, code `0xEF` (R238). -/
def execApp15 (s : State) : StepOutcome := s.complete (skipVariable s)

/-- COM, code `0xFE` (R239). -/
def execCom (s : State) : StepOutcome := s.complete (skipVariable s)

/-- DNL: the line count in its payload is not read, code `0xDC` (R240). -/
def execDnl (s : State) : StepOutcome := s.complete (skipVariable s)

/-! ### APP0, R220 -/

/-- How many payload bytes a recognising decoder examines (R221). -/
def examined (length : Half) (fixedLength : Nat) : Nat := min (length.toNat - 2) fixedLength

/-- The warning for a major version other than the expected one (R220, R354). -/
def State.warnMajor (s : State) (j : JfifOperands) : State :=
  if j.major = jfifExpectedMajor then s
  else s.emit .jfifMajorMismatch (j.major.setWidth 32) (j.minor.setWidth 32)

/-- The warning for a thumbnail that does not fill the payload behind the fixed bytes (R220, R354). -/
def State.warnThumbnail (s : State) (j : JfifOperands) (rem : Nat) : State :=
  if j.thumbWidth.toNat * j.thumbHeight.toNat * 3 = rem then s
  else s.emit .badThumbnailSize (BitVec.ofNat 32 rem) (BitVec.ofNat 32 (j.thumbWidth.toNat * 256 + j.thumbHeight.toNat))

/-- The writes of a recognised JFIF segment (R220). -/
def State.writeJfif (s : State) (j : JfifOperands) : State :=
  { s with
      jfif :=
        { saw := true
          major := j.major
          minor := j.minor
          densityUnit := j.densityUnit
          xDensity := j.xDensity
          yDensity := j.yDensity } }

/-- `DecodeApp0` (R220): the warnings in the order version, thumbnail, then the registers; on every path `max(L, 2)` bytes
are consumed (R221). -/
def decodeApp0 (s : State) : Decoded :=
  match s.source.half s.pos.toNat with
  | none => .suspend
  | some l =>
    let n := examined l app0FixedLength
    if s.source.has s.pos.toNat (2 + n) then
      match readJfif (s.source.take (s.pos.toNat + 2) n) with
      | some j =>
        .commit ((((s.warnMajor j).warnThumbnail j (l.toNat - 2 - app0FixedLength)).writeJfif j).advance (consumed l))
      | none => .commit (s.advance (consumed l))
    else .suspend

/-- APP0, code `0xE0`: the recognising decoder or the Skip decoder, as configured (R220, R223). -/
def execApp0 (s : State) : StepOutcome := s.complete (if s.config.app0 then decodeApp0 s else skipVariable s)

/-! ### APP14, R222 -/

/-- The writes of a recognised Adobe segment (R222). -/
def State.writeAdobe (s : State) (a : AdobeOperands) : State :=
  { s with
      adobe := { saw := true, version := a.version, flags0 := a.flags0, flags1 := a.flags1, transform := a.transform } }

/-- `DecodeApp14` (R222). -/
def decodeApp14 (s : State) : Decoded :=
  match s.source.half s.pos.toNat with
  | none => .suspend
  | some l =>
    let n := examined l app14FixedLength
    if s.source.has s.pos.toNat (2 + n) then
      match readAdobe (s.source.take (s.pos.toNat + 2) n) with
      | some a => .commit ((s.writeAdobe a).advance (consumed l))
      | none => .commit (s.advance (consumed l))
    else .suspend

/-- APP14, code `0xEE`: the recognising decoder or the Skip decoder, as configured (R222, R223). -/
def execApp14 (s : State) : StepOutcome := s.complete (if s.config.app14 then decodeApp14 s else skipVariable s)

end Sys2Proof.Machine
end

