-- ==== Sys2Proof/Machine/Frame.lean ====
section
/-! DEFINITION. SegmentDecoders, part 1: start of image, frame headers, unsupported frame variants, scan header
(`41_frame_and_scan_headers.md`). -/

namespace Sys2Proof.Machine

/-! ### Start of image, R161 -/

/-- The arithmetic defaults: low 0, high 1, K 5 for every table (R161). -/
def ArithRegs.defaults : ArithRegs :=
  { dcLow := Vector.replicate 16 0, dcHigh := Vector.replicate 16 1, acK := Vector.replicate 16 5 }

/-- The per-stream defaults a start-of-image restores (R161). -/
def State.startImage (s : State) : State :=
  { s with
      arith := ArithRegs.defaults
      restartInterval := 0
      colorSpace := 0
      jfif := JfifRegs.cleared
      adobe := AdobeRegs.cleared }.markStartOfImage

/-- `DecodeSOI` (R161). It reads no byte and moves nothing. -/
def decodeSoi (s : State) : Decoded :=
  if s.sawStartOfImage then .fatal (fatalError .duplicateStartOfImage 0 0)
  else .done s.startImage .proceed

/-- SOI (R161). -/
def execSoi (s : State) : StepOutcome := s.complete (decodeSoi s)

/-! ### Frame headers, R162 -/

/-- The component array a frame header allocates (R29, R162). The two entropy-table indices hold no value: each
is the next free value (log entry 6). -/
def allocateComponents : Nat → List FrameComponent → List Component
  | _, [] => []
  | free, c :: cs =>
    { id := c.id
      horizSampling := c.horizSampling
      vertSampling := c.vertSampling
      quantTableIndex := c.quantTableIndex
      dcTableIndex := Config.freeNibble free
      acTableIndex := Config.freeNibble (free + 1)
      scanned := false } :: allocateComponents (free + 2) cs

/-- The writes of the frame-header commit but for `pos` (R162). -/
def State.writeFrame (s : State) (code : Byte) (o : FrameOperands) : State :=
  { s with
      frame :=
        { marker := code
          precision := o.precision
          height := o.height
          width := o.width
          componentCount := BitVec.ofNat 8 o.components.length
          components := allocateComponents s.freeCount o.components }
      freeCount := s.freeCount + 2 * o.components.length }.markFrameHeader

/-- `DecodeFrameHeader(m)` (R162). -/
def decodeFrameHeader (code : Byte) (s : State) : Decoded :=
  if s.sawFrameHeader then .fatal (fatalError .duplicateFrameHeader (widen code) 0)
  else s.buffered code lengthAtLeastTwo fun l p =>
    .ofRead (readFrame code l p) fun o => .commit ((s.writeFrame code o).advance l.toNat)

/-- SOF0 (R163). -/
def execSof0 (s : State) : StepOutcome := s.complete (decodeFrameHeader 0xC0 s)

/-- SOF1 (R164). -/
def execSof1 (s : State) : StepOutcome := s.complete (decodeFrameHeader 0xC1 s)

/-- SOF2 (R165). -/
def execSof2 (s : State) : StepOutcome := s.complete (decodeFrameHeader 0xC2 s)

/-- SOF9 (R166). -/
def execSof9 (s : State) : StepOutcome := s.complete (decodeFrameHeader 0xC9 s)

/-- SOF10 (R167). -/
def execSof10 (s : State) : StepOutcome := s.complete (decodeFrameHeader 0xCA s)

/-! ### Unsupported frame-coding variants -/

/-- `UnsupportedFrame(m)`: always fatal, no byte read (R168). -/
def unsupportedFrame (code : Byte) : Decoded :=
  .fatal (fatalError .unsupportedFrameVariant (widen code) 0)

/-- SOF3 (R168). -/
def execSof3 (s : State) : StepOutcome := s.complete (unsupportedFrame 0xC3)

/-- SOF5 (R169). -/
def execSof5 (s : State) : StepOutcome := s.complete (unsupportedFrame 0xC5)

/-- SOF6 (R170). -/
def execSof6 (s : State) : StepOutcome := s.complete (unsupportedFrame 0xC6)

/-- SOF7 (R171). -/
def execSof7 (s : State) : StepOutcome := s.complete (unsupportedFrame 0xC7)

/-- JPG, the reserved code of the frame-header range (R172). -/
def execJpg (s : State) : StepOutcome := s.complete (unsupportedFrame 0xC8)

/-- SOF11 (R173). -/
def execSof11 (s : State) : StepOutcome := s.complete (unsupportedFrame 0xCB)

/-- SOF13 (R174). -/
def execSof13 (s : State) : StepOutcome := s.complete (unsupportedFrame 0xCD)

/-- SOF14 (R175). -/
def execSof14 (s : State) : StepOutcome := s.complete (unsupportedFrame 0xCE)

/-- SOF15 (R176). -/
def execSof15 (s : State) : StepOutcome := s.complete (unsupportedFrame 0xCF)

/-! ### Scan header, R177 -/

/-- The table indices a scan header writes into the components it names, in ascending order, so that of two that name one
component the later stands (R177). -/
def assignTables : List Component → List (Nat × ScanComponent) → List Component
  | frame, [] => frame
  | frame, (j, c) :: rest =>
    assignTables
      (frame.modify j fun f => { f with dcTableIndex := c.dcTable, acTableIndex := c.acTable, scanned := true }) rest

/-- The writes of the scan-header commit but for `pos` (R177). -/
def State.writeScan (s : State) (o : ScanOperands) (indices : List Nat) : State :=
  { s with
      scan :=
        { componentCount := BitVec.ofNat 3 o.components.length
          componentIndex := indices.map (BitVec.ofNat 8)
          spectralStart := o.spectralStart
          spectralEnd := o.spectralEnd
          approxHigh := o.approxHigh
          approxLow := o.approxLow }
      frame := { s.frame with components := assignTables s.frame.components (indices.zip o.components) } }.markScan

/-- `DecodeScanHeader` (R177). -/
def decodeScanHeader (s : State) : Decoded :=
  if s.sawFrameHeader then
    s.buffered 0xDA lengthAtLeastTwo fun l p =>
      .ofRead (readScan l p) fun o =>
        .ofRead (resolveSelectors s.frame.components o.components) fun indices =>
          .commit ((s.writeScan o indices).advance l.toNat) .scanStart
  else .fatal (fatalError .scanBeforeFrame 0 0)

/-- SOS (R177). -/
def execSos (s : State) : StepOutcome := s.complete (decodeScanHeader s)

end Sys2Proof.Machine
end

