-- ==== Sys2Proof/Machine/PlainMarkers.lean ====
section
/-! DEFINITION. SegmentDecoders, part 3, second half: the informational markers (`43_app_skip_and_other_markers.md` R241 to
R249), the end-of-stream marker (`44_marker_reader.md` R283) and the illegal codes (R250 to R267). None of them reads a byte
behind its code. -/

namespace Sys2Proof.Machine

/-! ### Informational markers -/

/-- `Informational(m)`: no byte read, nothing written (R241 to R249). -/
def informational (s : State) : Decoded := .done s .proceed

/-- RST0 met by READ_MARKERS (R241). -/
def execRst0 (s : State) : StepOutcome := s.complete (informational s)

/-- RST1 met by READ_MARKERS (R242). -/
def execRst1 (s : State) : StepOutcome := s.complete (informational s)

/-- RST2 met by READ_MARKERS (R243). -/
def execRst2 (s : State) : StepOutcome := s.complete (informational s)

/-- RST3 met by READ_MARKERS (R244). -/
def execRst3 (s : State) : StepOutcome := s.complete (informational s)

/-- RST4 met by READ_MARKERS (R245). -/
def execRst4 (s : State) : StepOutcome := s.complete (informational s)

/-- RST5 met by READ_MARKERS (R246). -/
def execRst5 (s : State) : StepOutcome := s.complete (informational s)

/-- RST6 met by READ_MARKERS (R247). -/
def execRst6 (s : State) : StepOutcome := s.complete (informational s)

/-- RST7 met by READ_MARKERS (R248). -/
def execRst7 (s : State) : StepOutcome := s.complete (informational s)

/-- TEM, the "fill marker" (R249). -/
def execTem (s : State) : StepOutcome := s.complete (informational s)

/-! ### End of stream -/

/-- `DecodeEOI`: no byte read, nothing written (R283). -/
def decodeEoi (s : State) : Decoded := .done s .endOfStream

/-- EOI (R283). -/
def execEoi (s : State) : StepOutcome := s.complete (decodeEoi s)

/-! ### Illegal codes -/

/-- `UnknownMarker(m)`: always fatal, no byte read (R250). -/
def unknownMarker (code : Byte) : Decoded :=
  .fatal (fatalError .unknownMarker (widen code) 0)

/-- RES, the reserved codes `0x02..0xBF` (R251). -/
def execRes (code : Byte) (s : State) : StepOutcome := s.complete (unknownMarker code)

/-- DHP (R252). -/
def execDhp (s : State) : StepOutcome := s.complete (unknownMarker 0xDE)

/-- EXP (R253). -/
def execExp (s : State) : StepOutcome := s.complete (unknownMarker 0xDF)

/-- JPG0 (R254). -/
def execJpg0 (s : State) : StepOutcome := s.complete (unknownMarker 0xF0)

/-- JPG1 (R255). -/
def execJpg1 (s : State) : StepOutcome := s.complete (unknownMarker 0xF1)

/-- JPG2 (R256). -/
def execJpg2 (s : State) : StepOutcome := s.complete (unknownMarker 0xF2)

/-- JPG3 (R257). -/
def execJpg3 (s : State) : StepOutcome := s.complete (unknownMarker 0xF3)

/-- JPG4 (R258). -/
def execJpg4 (s : State) : StepOutcome := s.complete (unknownMarker 0xF4)

/-- JPG5 (R259). -/
def execJpg5 (s : State) : StepOutcome := s.complete (unknownMarker 0xF5)

/-- JPG6 (R260). -/
def execJpg6 (s : State) : StepOutcome := s.complete (unknownMarker 0xF6)

/-- JPG7 (R261). -/
def execJpg7 (s : State) : StepOutcome := s.complete (unknownMarker 0xF7)

/-- JPG8 (R262). -/
def execJpg8 (s : State) : StepOutcome := s.complete (unknownMarker 0xF8)

/-- JPG9 (R263). -/
def execJpg9 (s : State) : StepOutcome := s.complete (unknownMarker 0xF9)

/-- JPG10 (R264). -/
def execJpg10 (s : State) : StepOutcome := s.complete (unknownMarker 0xFA)

/-- JPG11 (R265). -/
def execJpg11 (s : State) : StepOutcome := s.complete (unknownMarker 0xFB)

/-- JPG12 (R266). -/
def execJpg12 (s : State) : StepOutcome := s.complete (unknownMarker 0xFC)

/-- JPG13 (R267). -/
def execJpg13 (s : State) : StepOutcome := s.complete (unknownMarker 0xFD)

end Sys2Proof.Machine
end

