-- ==== Sys2Proof/Machine/Restart.lean ====
section
/-! DEFINITION. RestartResync and the command READ_RESTART_MARKER (`45_restart_resync.md`). Its scans run one scanner turn a
step while the activity is `restarting` (log entry 1). -/

namespace Sys2Proof.Machine

/-- The three actions of RestartResync (R321). -/
inductive Action where
  | scanForward
  | leave
  | discard
  deriving DecidableEq, Repr

/-- The index of a restart marker: `code - 0xD0`, which is `code[2:0]` (R112 (h)). -/
def restartIndex (code : Byte) : BitVec 3 := code.extractLsb' 0 3

/-- The code of restart marker `d` (R320). -/
def restartCode (d : BitVec 3) : Byte := restartBase + d.setWidth 8

/-- `Classify(m, d)` (R322). Arithmetic on the 3-bit indices is modulo 8. -/
def classify (m : Byte) (d : BitVec 3) : Action :=
  if m < lowestFrameCode then .scanForward
  else if m < restartBase ∨ 0xD7 < m then .leave
  else if restartIndex m = d + 1 ∨ restartIndex m = d + 2 then .leave
  else if restartIndex m = d + 7 ∨ restartIndex m = d + 6 then .scanForward
  else .discard

/-- READ_RESTART_MARKER succeeds: the index advances modulo 8 (R320). -/
def State.restartOk (s : State) : State :=
  { s with nextRestartIndex := s.nextRestartIndex + 1 }.finish .restartOk

/-- One turn of `Resync`'s loop: classify the pending code and act (R321, R323, R324, R325). -/
def State.resyncTurn (s : State) : StepOutcome :=
  match classify s.pendingMarker s.nextRestartIndex with
  | .scanForward => .next { s with activity := .restarting .resyncing 0 }
  | .leave => .next s.restartOk
  | .discard => .next { s with pendingMarker := 0 }.restartOk

/-- `Resync(d)`: the diagnostic once, before any action (R321, R326). -/
def State.resync (s : State) : StepOutcome :=
  (s.emit .mustResync (s.pendingMarker.setWidth 32) (s.nextRestartIndex.setWidth 32)).resyncTurn

/-- A marker is pending: the expected one is consumed, any other goes to `Resync` (R320). -/
def State.settleRestart (s : State) : StepOutcome :=
  if s.pendingMarker = restartCode s.nextRestartIndex then .next { s with pendingMarker := 0 }.restartOk
  else s.resync

/-- The marker `NextMarker` found for READ_RESTART_MARKER (R320, R323). -/
def State.restartFound (s : State) : RestartPhase → StepOutcome
  | .seeking => s.settleRestart
  | .resyncing => s.resyncTurn

/-- READ_RESTART_MARKER (R320). -/
def execReadRestartMarker (s : State) : StepOutcome :=
  s.whenIdle
    (if s.latch.fatal then .next (s.finish .fatalError)
     else if s.rstate = .inScan then
       if s.hasPending then s.settleRestart else .next { s with activity := .restarting .seeking 0 }
     else .refused .restartOutsideScan)

end Sys2Proof.Machine
end

