-- ==== Sys2Proof/Decode.lean ====
section
/-! DEFINITION. Decoding and encoding of the opcode map (`30_encoding.md` R100, R113) and of the command port
(R120), and the layout of a table word. Both directions are written from the same two tables. -/

namespace Sys2Proof

/-- The marker introducer byte of R100 (R8 `PREFIX`). -/
def introducer : Byte := 0xFF

/-- Why a byte string is no instruction (R100): it is too short, or its first byte is not `0xFF`. -/
inductive DecodeError where
  | truncated
  | notIntroducer (found : Byte)
  deriving DecidableEq, Repr

/-- The opcode map of R113, total on the 256 values of the byte behind the introducer.
The last line is reached by `0x02..0xBF` only (`Laws.decodeCode_res_iff`). -/
def decodeCode (code : Byte) : Instr :=
  match code.toNat with
  | 0x00 => .stuff
  | 0x01 => .tem
  | 0xC0 => .sof0
  | 0xC1 => .sof1
  | 0xC2 => .sof2
  | 0xC3 => .sof3
  | 0xC4 => .dht
  | 0xC5 => .sof5
  | 0xC6 => .sof6
  | 0xC7 => .sof7
  | 0xC8 => .jpg
  | 0xC9 => .sof9
  | 0xCA => .sof10
  | 0xCB => .sof11
  | 0xCC => .dac
  | 0xCD => .sof13
  | 0xCE => .sof14
  | 0xCF => .sof15
  | 0xD0 => .rst0
  | 0xD1 => .rst1
  | 0xD2 => .rst2
  | 0xD3 => .rst3
  | 0xD4 => .rst4
  | 0xD5 => .rst5
  | 0xD6 => .rst6
  | 0xD7 => .rst7
  | 0xD8 => .soi
  | 0xD9 => .eoi
  | 0xDA => .sos
  | 0xDB => .dqt
  | 0xDC => .dnl
  | 0xDD => .dri
  | 0xDE => .dhp
  | 0xDF => .exp
  | 0xE0 => .app0
  | 0xE1 => .app1
  | 0xE2 => .app2
  | 0xE3 => .app3
  | 0xE4 => .app4
  | 0xE5 => .app5
  | 0xE6 => .app6
  | 0xE7 => .app7
  | 0xE8 => .app8
  | 0xE9 => .app9
  | 0xEA => .app10
  | 0xEB => .app11
  | 0xEC => .app12
  | 0xED => .app13
  | 0xEE => .app14
  | 0xEF => .app15
  | 0xF0 => .jpg0
  | 0xF1 => .jpg1
  | 0xF2 => .jpg2
  | 0xF3 => .jpg3
  | 0xF4 => .jpg4
  | 0xF5 => .jpg5
  | 0xF6 => .jpg6
  | 0xF7 => .jpg7
  | 0xF8 => .jpg8
  | 0xF9 => .jpg9
  | 0xFA => .jpg10
  | 0xFB => .jpg11
  | 0xFC => .jpg12
  | 0xFD => .jpg13
  | 0xFE => .com
  | 0xFF => .fill
  | _ => .res code

/-- The command port of R120: its 2-bit field has no undefined value. -/
def decodeCommand (code : BitVec 2) : Instr :=
  match code.toNat with
  | 0 => .nop
  | 1 => .resetStream
  | 2 => .readMarkers
  | _ => .readRestartMarker

/-- Decode the marker (or escape) at the head of a byte string: the introducer, then the code byte (R100).
What follows belongs to the segment and is left for the meaning to read. Of FILL only the first byte is used up:
its second byte may itself introduce a code (R143). -/
def decode : List Byte → Except DecodeError (Instr × List Byte)
  | b :: code :: rest =>
    if b = introducer then
      match decodeCode code with
      | .fill => .ok (.fill, code :: rest)
      | i => .ok (i, rest)
    else .error (.notIntroducer b)
  | _ => .error .truncated

/-- Where an instruction's word stands: a 16-bit marker word of the stream (R100), or the 2-bit command
port (R120). -/
inductive Encoding where
  | marker (word : BitVec 16)
  | command (code : BitVec 2)
  deriving DecidableEq, Repr

/-- The word of an instruction: `0xFF00 + code` (R100, R113), or the command code (R120). -/
def encode : Instr → Encoding
  | .res code => .marker (introducer ++ code)
  | .stuff => .marker 0xFF00
  | .tem => .marker 0xFF01
  | .sof0 => .marker 0xFFC0
  | .sof1 => .marker 0xFFC1
  | .sof2 => .marker 0xFFC2
  | .sof3 => .marker 0xFFC3
  | .dht => .marker 0xFFC4
  | .sof5 => .marker 0xFFC5
  | .sof6 => .marker 0xFFC6
  | .sof7 => .marker 0xFFC7
  | .jpg => .marker 0xFFC8
  | .sof9 => .marker 0xFFC9
  | .sof10 => .marker 0xFFCA
  | .sof11 => .marker 0xFFCB
  | .dac => .marker 0xFFCC
  | .sof13 => .marker 0xFFCD
  | .sof14 => .marker 0xFFCE
  | .sof15 => .marker 0xFFCF
  | .rst0 => .marker 0xFFD0
  | .rst1 => .marker 0xFFD1
  | .rst2 => .marker 0xFFD2
  | .rst3 => .marker 0xFFD3
  | .rst4 => .marker 0xFFD4
  | .rst5 => .marker 0xFFD5
  | .rst6 => .marker 0xFFD6
  | .rst7 => .marker 0xFFD7
  | .soi => .marker 0xFFD8
  | .eoi => .marker 0xFFD9
  | .sos => .marker 0xFFDA
  | .dqt => .marker 0xFFDB
  | .dnl => .marker 0xFFDC
  | .dri => .marker 0xFFDD
  | .dhp => .marker 0xFFDE
  | .exp => .marker 0xFFDF
  | .app0 => .marker 0xFFE0
  | .app1 => .marker 0xFFE1
  | .app2 => .marker 0xFFE2
  | .app3 => .marker 0xFFE3
  | .app4 => .marker 0xFFE4
  | .app5 => .marker 0xFFE5
  | .app6 => .marker 0xFFE6
  | .app7 => .marker 0xFFE7
  | .app8 => .marker 0xFFE8
  | .app9 => .marker 0xFFE9
  | .app10 => .marker 0xFFEA
  | .app11 => .marker 0xFFEB
  | .app12 => .marker 0xFFEC
  | .app13 => .marker 0xFFED
  | .app14 => .marker 0xFFEE
  | .app15 => .marker 0xFFEF
  | .jpg0 => .marker 0xFFF0
  | .jpg1 => .marker 0xFFF1
  | .jpg2 => .marker 0xFFF2
  | .jpg3 => .marker 0xFFF3
  | .jpg4 => .marker 0xFFF4
  | .jpg5 => .marker 0xFFF5
  | .jpg6 => .marker 0xFFF6
  | .jpg7 => .marker 0xFFF7
  | .jpg8 => .marker 0xFFF8
  | .jpg9 => .marker 0xFFF9
  | .jpg10 => .marker 0xFFFA
  | .jpg11 => .marker 0xFFFB
  | .jpg12 => .marker 0xFFFC
  | .jpg13 => .marker 0xFFFD
  | .com => .marker 0xFFFE
  | .fill => .marker 0xFFFF
  | .nop => .command 0
  | .resetStream => .command 1
  | .readMarkers => .command 2
  | .readRestartMarker => .command 3

/-- The bytes of a 16-bit marker word in stream order: introducer first, code second (R79, R100). -/
def markerBytes (word : BitVec 16) : List Byte :=
  [word.extractLsb' 8 8, word.extractLsb' 0 8]

/-- The instruction an encoded word stands for: a marker word through its bytes, a command through the port. -/
def decodeWord : Encoding → Option Instr
  | .marker word => (decode (markerBytes word)).toOption.map Prod.fst
  | .command code => some (decodeCommand code)

/-- The bytes of a table row of `nbits` bits, in stream order: 16-bit words, the first at the lowest position,
each with its introducer (bits 15..8) before its code (bits 7..0) (R100; log entry 25). -/
def tableBytes (nbits w : Nat) : List Byte :=
  (List.range ((nbits + 15) / 16)).flatMap fun k => markerBytes (BitVec.ofNat 16 (w / 2 ^ (16 * k)))

/-- A row of at most 8 bits is a row of the 2-bit command port; every other row is a marker word of the stream. -/
def isCommandRow (nbits : Nat) : Bool := nbits ≤ 8

/-- The instruction the decoder reads from an instruction whose bits are `w`, numbered as the opcode table
numbers them. -/
def decodeTableWord (nbits w : Nat) : Option Instr :=
  if isCommandRow nbits then
    if w < 4 then some (decodeCommand (BitVec.ofNat 2 w)) else none
  else (decode (tableBytes nbits w)).toOption.map Prod.fst

end Sys2Proof
end

