-- ==== Sys2Proof/Machine/Scanner.lean ====
section
/-! DEFINITION. The MarkerScanner (`40_marker_scanner.md`): the Cursor over a run of introducers, the escapes FILL and STUFF,
discarded garbage, the marker found, and the first-marker entry. One turn of the scanner's loops is one step
(log entry 1): the Cursor is `pos + run`, kept in the activity while the command runs. -/

namespace Sys2Proof.Machine

/-- How many introducers the Cursor has swallowed beyond the one at `pos` (R142). -/
def Activity.run : Activity → Nat
  | .idle => 0
  | .reading run => run
  | .restarting _ run => run

/-- The Cursor moved to one more introducer (R143). -/
def Activity.swallow : Activity → Activity
  | .idle => .idle
  | .reading run => .reading (run + 1)
  | .restarting phase run => .restarting phase (run + 1)

/-- The Cursor back at `pos`. -/
def Activity.rewind : Activity → Activity
  | .idle => .idle
  | .reading _ => .reading 0
  | .restarting phase _ => .restarting phase 0

/-- What stands at the Cursor (R142): nothing supplied yet, a garbage byte, or an introducer with the byte behind it. -/
inductive Token where
  | starved
  | garbage
  | pair (code : Byte)
  deriving DecidableEq, Repr

/-- The byte behind the run of introducers, at `pos + run + 1`. -/
def State.behindRun (s : State) (run : Nat) : Token :=
  match s.source.peek (s.pos.toNat + run + 1) with
  | none => .starved
  | some code => .pair code

/-- One look of the scanner. With `run > 0` the introducer at the Cursor has already been seen (R142). -/
def State.token (s : State) (run : Nat) : Token :=
  if run = 0 then
    match s.source.peek s.pos.toNat with
    | none => .starved
    | some b => if b = introducer then s.behindRun run else .garbage
  else s.behindRun run

/-- A progressive commit of the scanner: `counted` bytes of garbage, `pos` moved past `n` bytes, the Cursor back at `pos`
(R142). -/
def State.discard (s : State) (counted n : Nat) : StepOutcome :=
  orOverflow ({ s.countDiscarded counted with activity := s.activity.rewind }.advance n)

/-- A garbage byte is discarded and counted as 1 (R115 (d), R142). -/
def State.discardGarbage (s : State) : StepOutcome := s.discard 1 1

/-- FILL, `0xFF 0xFF` (R143): the introducer is padding; no state is written but the running Cursor. -/
def execFill (s : State) : StepOutcome := .next { s with activity := s.activity.swallow }

/-- STUFF, a run of introducers and `0x00` (R144): the whole run and the zero byte are consumed, and exactly 2 bytes
are counted whatever the length of the run. -/
def execStuff (s : State) : StepOutcome := s.discard 2 (s.activity.run + 2)

/-- The ExtraneousData warning of a marker found, when any bytes were discarded (R145). -/
def State.warnExtraneous (s : State) (code : Byte) : State :=
  if s.anyDiscarded then s.emit .extraneousData s.discardedByteCount (code.setWidth 32) else s

/-- A marker is found behind the run: the warning, then the last commit of `NextMarker` (R142). -/
def State.acquire (s : State) (code : Byte) : Option State :=
  { s.warnExtraneous code with
      discardedByteCount := 0
      pendingMarker := code
      activity := s.activity.rewind }.advance (s.activity.run + 2)

/-- The two bytes `FirstMarker` accepts (R146). -/
def startOfImageCode : Byte := 0xD8

/-- What `FirstMarker` finds (R146): fewer than two bytes, the wrong two bytes, or the start-of-image marker. -/
inductive FirstLook where
  | starved
  | wrong (c1 c2 : Byte)
  | found
  deriving DecidableEq, Repr

/-- The two bytes at `pos`, judged only when both are there (R146). -/
def State.firstLook (s : State) : FirstLook :=
  if s.source.has s.pos.toNat 2 then
    let c1 := Memory.read s.source.bytes s.pos.toNat
    let c2 := Memory.read s.source.bytes (s.pos.toNat + 1)
    if c1 = introducer ∧ c2 = startOfImageCode then .found else .wrong c1 c2
  else .starved

/-- The commit of `FirstMarker` (R146). -/
def State.acquireFirst (s : State) : Option State :=
  { s with pendingMarker := startOfImageCode, activity := s.activity.rewind }.advance 2

end Sys2Proof.Machine
end

