-- ==== Sys2Proof/Machine/TableSegments.lean ====
section
/-! DEFINITION. SegmentDecoders, part 2: quantisation, Huffman, arithmetic-conditioning and restart-interval segments
(`42_table_segments.md`). All four are buffered kinds with one commit at their end. -/

namespace Sys2Proof.Machine

/-! ### DQT, R190 -/

/-- `quantTables[tq][ZIGZAG[k]] <- v_k` for the coefficients in stream order (R190). -/
def storeZigzag : List (Fin 64) → List Half → QuantTable → QuantTable
  | z :: zs, v :: vs, t => storeZigzag zs vs (t.set z.val v z.isLt)
  | _, _, t => t

/-- One definition applied (R190). -/
def QuantRegs.define (q : QuantRegs) (d : QuantDef) : QuantRegs :=
  { defined := q.defined.set d.table.val true d.table.isLt
    tables := q.tables.set d.table.val (storeZigzag zigzag d.coeffs q.tables[d.table]) d.table.isLt }

/-- `DecodeDQT` (R190). -/
def decodeDqt (s : State) : Decoded :=
  s.buffered 0xDB lengthAtLeastTwo fun l p =>
    .ofRead (readQuantDefs l p.length p) fun defs =>
      .commit ({ s with quant := defs.foldl QuantRegs.define s.quant }.advance l.toNat)

/-- DQT (R190). -/
def execDqt (s : State) : StepOutcome := s.complete (decodeDqt s)

/-! ### DHT, R191 -/

/-- The table a definition describes, counts and symbols verbatim (R191). -/
def huffTableOf (d : HuffDef) : HuffTable :=
  { defined := true, bits := d.counts, symCount := BitVec.ofNat 9 (countSymbols d.counts.toList), values := d.values }

/-- One definition applied (R191). -/
def defineHuff (h : HuffRegs) (d : HuffDef) : HuffRegs :=
  h.set d.bank.val (h[d.bank].set d.table.val (huffTableOf d) d.table.isLt) d.bank.isLt

/-- `DecodeDHT` (R191). -/
def decodeDht (s : State) : Decoded :=
  s.buffered 0xC4 lengthAtLeastTwo fun l p =>
    .ofRead (readHuffDefs l p.length p) fun defs =>
      .commit ({ s with huff := defs.foldl defineHuff s.huff }.advance l.toNat)

/-- DHT (R191). -/
def execDht (s : State) : StepOutcome := s.complete (decodeDht s)

/-! ### DAC, R192 -/

/-- One entry applied: a DC-class index sets the bounds, an AC-class index the parameter (R106, R192). -/
def ArithRegs.apply (a : ArithRegs) (e : DacEntry) : ArithRegs :=
  if h : e.index.val < 16 then
    { a with
        dcLow := a.dcLow.set e.index.val (lowNibble e.value) h
        dcHigh := a.dcHigh.set e.index.val (highNibble e.value) h }
  else { a with acK := a.acK.set (e.index.val - 16) e.value (by have := e.index.isLt; omega) }

/-- `DecodeDAC` (R192). -/
def decodeDac (s : State) : Decoded :=
  s.buffered 0xCC lengthAtLeastTwo fun l p =>
    .ofRead (readDacEntries l p) fun es =>
      .commit ({ s with arith := es.foldl ArithRegs.apply s.arith }.advance l.toNat)

/-- DAC (R192). -/
def execDac (s : State) : StepOutcome := s.complete (decodeDac s)

/-! ### DRI, R193 -/

/-- The restart interval's test on `L`, made as soon as `L` has been read (R193). -/
def lengthIsFour (l : Half) : Bool := l.toNat = 4

/-- `DecodeDRI` (R193). -/
def decodeDri (s : State) : Decoded :=
  s.buffered 0xDD lengthIsFour fun l p =>
    match p with
    | [r1, r0] => .commit ({ s with restartInterval := be16 r1 r0 }.advance l.toNat)
    | _ => .fatal (badLength 0xDD l)

/-- DRI (R193). -/
def execDri (s : State) : StepOutcome := s.complete (decodeDri s)

end Sys2Proof.Machine
end

