-- ==== Sys2Proof/Machine/Dispatch.lean ====
section
/-! DEFINITION. The dispatcher: one arm per instruction (`44_marker_reader.md` R282, `30_encoding.md` R120). -/

namespace Sys2Proof.Machine

def exec (i : Instr) (s : State) : Host.Outcome State Fault Refusal :=
  match i with
  | .stuff => Sys2Proof.Machine.execStuff s
  | .fill => Sys2Proof.Machine.execFill s
  | .tem => Sys2Proof.Machine.execTem s
  | .res code => Sys2Proof.Machine.execRes code s
  | .sof0 => Sys2Proof.Machine.execSof0 s
  | .sof1 => Sys2Proof.Machine.execSof1 s
  | .sof2 => Sys2Proof.Machine.execSof2 s
  | .sof3 => Sys2Proof.Machine.execSof3 s
  | .dht => Sys2Proof.Machine.execDht s
  | .sof5 => Sys2Proof.Machine.execSof5 s
  | .sof6 => Sys2Proof.Machine.execSof6 s
  | .sof7 => Sys2Proof.Machine.execSof7 s
  | .jpg => Sys2Proof.Machine.execJpg s
  | .sof9 => Sys2Proof.Machine.execSof9 s
  | .sof10 => Sys2Proof.Machine.execSof10 s
  | .sof11 => Sys2Proof.Machine.execSof11 s
  | .dac => Sys2Proof.Machine.execDac s
  | .sof13 => Sys2Proof.Machine.execSof13 s
  | .sof14 => Sys2Proof.Machine.execSof14 s
  | .sof15 => Sys2Proof.Machine.execSof15 s
  | .rst0 => Sys2Proof.Machine.execRst0 s
  | .rst1 => Sys2Proof.Machine.execRst1 s
  | .rst2 => Sys2Proof.Machine.execRst2 s
  | .rst3 => Sys2Proof.Machine.execRst3 s
  | .rst4 => Sys2Proof.Machine.execRst4 s
  | .rst5 => Sys2Proof.Machine.execRst5 s
  | .rst6 => Sys2Proof.Machine.execRst6 s
  | .rst7 => Sys2Proof.Machine.execRst7 s
  | .soi => Sys2Proof.Machine.execSoi s
  | .eoi => Sys2Proof.Machine.execEoi s
  | .sos => Sys2Proof.Machine.execSos s
  | .dqt => Sys2Proof.Machine.execDqt s
  | .dnl => Sys2Proof.Machine.execDnl s
  | .dri => Sys2Proof.Machine.execDri s
  | .dhp => Sys2Proof.Machine.execDhp s
  | .exp => Sys2Proof.Machine.execExp s
  | .app0 => Sys2Proof.Machine.execApp0 s
  | .app1 => Sys2Proof.Machine.execApp1 s
  | .app2 => Sys2Proof.Machine.execApp2 s
  | .app3 => Sys2Proof.Machine.execApp3 s
  | .app4 => Sys2Proof.Machine.execApp4 s
  | .app5 => Sys2Proof.Machine.execApp5 s
  | .app6 => Sys2Proof.Machine.execApp6 s
  | .app7 => Sys2Proof.Machine.execApp7 s
  | .app8 => Sys2Proof.Machine.execApp8 s
  | .app9 => Sys2Proof.Machine.execApp9 s
  | .app10 => Sys2Proof.Machine.execApp10 s
  | .app11 => Sys2Proof.Machine.execApp11 s
  | .app12 => Sys2Proof.Machine.execApp12 s
  | .app13 => Sys2Proof.Machine.execApp13 s
  | .app14 => Sys2Proof.Machine.execApp14 s
  | .app15 => Sys2Proof.Machine.execApp15 s
  | .jpg0 => Sys2Proof.Machine.execJpg0 s
  | .jpg1 => Sys2Proof.Machine.execJpg1 s
  | .jpg2 => Sys2Proof.Machine.execJpg2 s
  | .jpg3 => Sys2Proof.Machine.execJpg3 s
  | .jpg4 => Sys2Proof.Machine.execJpg4 s
  | .jpg5 => Sys2Proof.Machine.execJpg5 s
  | .jpg6 => Sys2Proof.Machine.execJpg6 s
  | .jpg7 => Sys2Proof.Machine.execJpg7 s
  | .jpg8 => Sys2Proof.Machine.execJpg8 s
  | .jpg9 => Sys2Proof.Machine.execJpg9 s
  | .jpg10 => Sys2Proof.Machine.execJpg10 s
  | .jpg11 => Sys2Proof.Machine.execJpg11 s
  | .jpg12 => Sys2Proof.Machine.execJpg12 s
  | .jpg13 => Sys2Proof.Machine.execJpg13 s
  | .com => Sys2Proof.Machine.execCom s
  | .nop => Sys2Proof.Machine.execNop s
  | .resetStream => Sys2Proof.Machine.execResetStream s
  | .readMarkers => Sys2Proof.Machine.execReadMarkers s
  | .readRestartMarker => Sys2Proof.Machine.execReadRestartMarker s

end Sys2Proof.Machine
end

