-- ==== Sys2Proof/Machine/Environment.lean ====
section
/-! DEFINITION. What the environment agents do to the machine between two commands (`00_scope.md` R7): the byte source
(`20_memory.md` R70 to R76), the entropy stage within its liberties (`45_restart_resync.md` R327) and the out-of-scope stages
that own `colorSpace` (R37, R41). -/

namespace Sys2Proof.Machine

/-- The entropy stage may act: in a scan, with the latch clear (R327). -/
def State.entropyMayAct (s : State) : Bool := s.rstate = .inScan && !s.latch.fatal

/-- A code the entropy stage may hand over: `0x01..0xFE` (R327 (b)). -/
def isMarkerCode (code : Byte) : Bool := code != 0 && code != 0xFF

/-- R72: the byte source supplies bytes. A fill behind a raised `eod` is accepted and leaves `eod` raised: DESIGN CHOICE, safe
(log entry 29). -/
def State.fill (s : State) (bs : List Byte) : State := { s with source := s.source.fill bs }

/-- R73, R387: skipped bytes are accounted for and never made readable, so only positions below `pos` may be (R75).
An accounting behind a raised `eod` is accepted and leaves `eod` raised: DESIGN CHOICE, safe (log entry 29). -/
def State.account (s : State) (n : Nat) : StepOutcome :=
  if s.source.avail + n ≤ s.pos.toNat then .next { s with source := { s.source with avail := s.source.avail + n } }
  else .refused .sourceDuty

/-- R70, R76: the end-of-data flag is raised; the core never looks at it. It stays raised until a reset (R383), whatever the
source does next (log entry 29). -/
def State.endOfData (s : State) : State := { s with source := { s.source with eod := true } }

/-- R327 (a): coded data is consumed, within the bytes supplied. -/
def State.consume (s : State) (n : Nat) : StepOutcome :=
  if s.entropyMayAct && decide (s.pos.toNat + n ≤ s.source.avail) then orOverflow (s.advance n)
  else .refused .entropyLiberty

/-- R327 (b): a marker is handed over, when none is pending. -/
def State.handOver (s : State) (code : Byte) : StepOutcome :=
  if s.entropyMayAct && s.pendingMarker == 0 && isMarkerCode code then .next { s with pendingMarker := code }
  else .refused .entropyLiberty

end Sys2Proof.Machine
end

