-- ==== Sys2Proof/Machine/Fetch.lean ====
section
/-! DEFINITION. What a step runs: the next command or environment action when the core is idle (`30_encoding.md` R120,
`20_memory.md` R84), the next marker of READ_MARKERS' loop (`44_marker_reader.md` R281), or the next scanner turn of
READ_RESTART_MARKER (`45_restart_resync.md` R320 to R323). -/

namespace Sys2Proof.Machine

/-- Either an instruction to run, with the state the fetch leaves it, or the whole outcome of a step that runs none. -/
inductive Fetched where
  | instr (i : Instr) (s : State)
  | settled (o : StepOutcome)

/-- A marker acquired for READ_MARKERS is dispatched in the same step (R281). -/
def fetchAcquired (code : Byte) (acquired : Option State) : Fetched :=
  match acquired with
  | some s => .instr (decodeCode code) s
  | none => .settled (.refused .positionOverflow)

/-- The byte behind a run of introducers, for READ_MARKERS: an escape is run as it stands, a marker is acquired first. -/
def fetchPair (s : State) (code : Byte) : Fetched :=
  if code = introducer ∨ code = 0 then .instr (decodeCode code) s
  else fetchAcquired code (s.acquire code)

/-- `NextMarker` for READ_MARKERS (R142). -/
def fetchNext (s : State) (run : Nat) : Fetched :=
  match s.token run with
  | .starved => .settled (.next s.suspend)
  | .garbage => .settled s.discardGarbage
  | .pair code => fetchPair s code

/-- `FirstMarker` (R146). -/
def fetchFirst (s : State) : Fetched :=
  match s.firstLook with
  | .starved => .settled (.next s.suspend)
  | .wrong c1 c2 => .settled (.next (s.raiseFatal (fatalError .noStartOfImage (widen c1) (widen c2))))
  | .found => fetchAcquired startOfImageCode s.acquireFirst

/-- A marker is pending: it goes straight to the dispatcher (R281 (c)). `0xFF` cannot be pending (R282; log entry 17). -/
def fetchPending (s : State) : Fetched :=
  if s.pendingMarker = introducer then .settled (.fault .pendingNotAMarker)
  else .instr (decodeCode s.pendingMarker) s

/-- The head of READ_MARKERS' loop (R281). -/
def fetchMarker (s : State) (run : Nat) : Fetched :=
  if s.hasPending then fetchPending s
  else if s.rstate = .awaitingStartOfImage then fetchFirst s
  else fetchNext s run

/-- A marker found for READ_RESTART_MARKER is classified, not decoded (R114, R320). -/
def restartAcquired (phase : RestartPhase) (acquired : Option State) : StepOutcome :=
  match acquired with
  | some s => s.restartFound phase
  | none => .refused .positionOverflow

/-- `NextMarker` for READ_RESTART_MARKER (R320, R323). -/
def fetchRestart (s : State) (phase : RestartPhase) (run : Nat) : Fetched :=
  match s.token run with
  | .starved => .settled (.next s.suspend)
  | .garbage => .settled s.discardGarbage
  | .pair code =>
    if code = introducer ∨ code = 0 then .instr (decodeCode code) s
    else .settled (restartAcquired phase (s.acquire code))

/-- The core is idle: it takes the next input, or goes on doing nothing (R382). -/
def fetchInput (s : State) : List Input → Fetched
  | [] => .settled (.next s)
  | .command code :: rest => .instr (decodeCommand code) { s with inputs := rest }
  | .fill bs :: rest => .settled (.next ({ s with inputs := rest }.fill bs))
  | .account n :: rest => .settled ({ s with inputs := rest }.account n)
  | .endOfData :: rest => .settled (.next { s with inputs := rest }.endOfData)
  | .consume n :: rest => .settled ({ s with inputs := rest }.consume n)
  | .handOver code :: rest => .settled ({ s with inputs := rest }.handOver code)
  | .setColorSpace v :: rest => .settled (.next { s with inputs := rest, colorSpace := v })

/-- What the next step runs. -/
def fetch (s : State) : Fetched :=
  match s.activity with
  | .idle => fetchInput s s.inputs
  | .reading run => fetchMarker s run
  | .restarting phase run => fetchRestart s phase run

/-- The longest instruction: the marker and the longest declared segment (R101). -/
def longestInstruction : Nat := 2 + 65535

/-- The bytes of one instruction stored at `pos`, every operand byte behind them 0, all of them supplied. -/
def ByteSource.place (src : ByteSource) (a : Nat) (bs : List Byte) : ByteSource :=
  { src with
      bytes := Memory.writeBytes (Memory.erase src.bytes a longestInstruction) a bs
      avail := max src.avail (a + longestInstruction) }

/-- A marker other than the start-of-image marker is obtained by `NextMarker`, so only once a start of image has been
seen (R146, R281). -/
def State.readyFor (s : State) (bs : List Byte) : State :=
  if s.rstate = .awaitingStartOfImage ∧ bs ≠ [introducer, startOfImageCode] then s.markStartOfImage else s

end Sys2Proof.Machine
end

