-- ==== Sys2Proof/Machine/Step.lean ====
section
/-! DEFINITION. One step of the machine, and the placing of an instruction where the next step fetches it. -/

namespace Sys2Proof.Machine

/-- One step: the fetched instruction is executed, or the step is settled without one. -/
def step (s : State) : Host.Outcome State Fault Refusal :=
  match fetch s with
  | .instr i s' => exec i s'
  | .settled o => o

/-- The state in which the very next step runs the instruction whose bits are `w` (log entry 14). A command is put at the
head of the inputs of an idle core. A marker is stored at `pos` with its operand bytes 0 and supplied, and READ_MARKERS
is in progress at the head of its loop with no marker pending. -/
def State.withFetchWord (s : State) (nbits w : Nat) : State :=
  if isCommandRow nbits then { s with inputs := .command (BitVec.ofNat 2 w) :: s.inputs, activity := .idle }
  else
    { s.readyFor (tableBytes nbits w) with
        source := s.source.place s.pos.toNat (tableBytes nbits w)
        pendingMarker := 0
        activity := .reading 0 }

end Sys2Proof.Machine
end

