-- ==== Sys2Proof/Machine/Query.lean ====
section
/-! DEFINITION. The host's read access to the state elements (`10_state.md` R42) and the guards of the elements that may hold
no value (R21): a read of one that holds none has no meaning and is refused (`60_exceptions.md` R364 (d)). -/

namespace Sys2Proof.Machine

/-- The fields of one record of S15 (R29). -/
inductive ComponentField where
  | id
  | horizSampling
  | vertSampling
  | quantTableIndex
  | dcTableIndex
  | acTableIndex
  deriving DecidableEq, Repr

/-- The state elements S1 to S38 by name (R20, R42). -/
inductive Element where
  | pos
  | rstate
  | pendingMarker
  | fatal
  | fatalCode
  | fatalInfo0
  | fatalInfo1
  | discardedByteCount
  | sawStartOfImage
  | sawFrameHeader
  | frameMarker
  | framePrecision
  | imageHeight
  | imageWidth
  | frameComponentCount
  | frameComponents (i : Fin 255) (field : ComponentField)
  | scanComponentCount
  | scanComponentIndex (i : Fin 4)
  | spectralStart
  | spectralEnd
  | approxHigh
  | approxLow
  | scanCount
  | nextRestartIndex
  | restartInterval
  | quantDefined (t : Fin 4)
  | quantTables (t : Fin 4) (k : Fin 64)
  | huffDefined (c : Fin 2) (t : Fin 4)
  /-- `l` counts from 0: it stands for the code length `l + 1`. -/
  | huffBits (c : Fin 2) (t : Fin 4) (l : Fin 16)
  | huffSymCount (c : Fin 2) (t : Fin 4)
  | huffVals (c : Fin 2) (t : Fin 4) (i : Fin 256)
  | arithDcLow (i : Fin 16)
  | arithDcHigh (i : Fin 16)
  | arithAcK (i : Fin 16)
  | colorSpace
  | sawJfif
  | jfifMajor
  | jfifMinor
  | densityUnit
  | xDensity
  | yDensity
  | sawAdobe
  | adobeVersion
  | adobeFlags0
  | adobeFlags1
  | adobeTransform
  | events
  deriving DecidableEq, Repr

/-- What a query answers: a number, or the event log. -/
inductive Reading where
  | number (n : Nat)
  | log (events : List Event)
  deriving DecidableEq, Repr

/-- The number a one-bit element reads as. -/
def ofBool (b : Bool) : Reading := .number b.toNat

/-- The value of an element whose guard is given. Without it the element holds no value, and the query is refused, as R21,
R364 (d) and U6 of `93_implementation_defined.md` say. -/
def guarded (guard : Bool) (value : Reading) : Except Refusal Reading :=
  if guard then .ok value else .error .noValue

/-- The value of an entry that may not exist (R29, R30, R35): one that does not holds no value (R364 (d)). -/
def entry (guard : Bool) (value : Option Nat) : Except Refusal Reading :=
  match value with
  | some n => guarded guard (.number n)
  | none => .error .noValue

/-- One field of a component. The two entropy-table indices hold no value until a scan header has named the
component (R21, R29). -/
def Component.field (c : Component) : ComponentField → Option Nat
  | .id => some c.id.toNat
  | .horizSampling => some c.horizSampling.toNat
  | .vertSampling => some c.vertSampling.toNat
  | .quantTableIndex => some c.quantTableIndex.toNat
  | .dcTableIndex => if c.scanned then some c.dcTableIndex.toNat else none
  | .acTableIndex => if c.scanned then some c.acTableIndex.toNat else none

/-- What an element holds, under its guard (R20, R21). `sawJfif` and `sawAdobe` have none, since R44 gives them a reset value
(log entry 23). -/
def State.read (s : State) (e : Element) : Except Refusal Reading :=
  match e with
  | .pos => .ok (.number s.pos.toNat)
  | .rstate => .ok (.number s.rstate.code.toNat)
  | .pendingMarker => .ok (.number s.pendingMarker.toNat)
  | .fatal => .ok (ofBool s.latch.fatal)
  | .fatalCode => .ok (.number s.latch.code.toNat)
  | .fatalInfo0 => .ok (.number s.latch.info0.toNat)
  | .fatalInfo1 => .ok (.number s.latch.info1.toNat)
  | .discardedByteCount => .ok (.number s.discardedByteCount.toNat)
  | .sawStartOfImage => .ok (ofBool s.sawStartOfImage)
  | .sawFrameHeader => .ok (ofBool s.sawFrameHeader)
  | .frameMarker => guarded s.sawFrameHeader (.number s.frame.marker.toNat)
  | .framePrecision => guarded s.sawFrameHeader (.number s.frame.precision.toNat)
  | .imageHeight => guarded s.sawFrameHeader (.number s.frame.height.toNat)
  | .imageWidth => guarded s.sawFrameHeader (.number s.frame.width.toNat)
  | .frameComponentCount => guarded s.sawFrameHeader (.number s.frame.componentCount.toNat)
  | .frameComponents i field => entry s.sawFrameHeader (s.frame.components[i.val]?.bind (·.field field))
  | .scanComponentCount => guarded (s.rstate = .inScan) (.number s.scan.componentCount.toNat)
  | .scanComponentIndex i => entry (s.rstate = .inScan) (s.scan.componentIndex[i.val]?.map BitVec.toNat)
  | .spectralStart => guarded (s.rstate = .inScan) (.number s.scan.spectralStart.toNat)
  | .spectralEnd => guarded (s.rstate = .inScan) (.number s.scan.spectralEnd.toNat)
  | .approxHigh => guarded (s.rstate = .inScan) (.number s.scan.approxHigh.toNat)
  | .approxLow => guarded (s.rstate = .inScan) (.number s.scan.approxLow.toNat)
  | .scanCount => .ok (.number s.scanCount.toNat)
  | .nextRestartIndex => .ok (.number s.nextRestartIndex.toNat)
  | .restartInterval => guarded s.sawStartOfImage (.number s.restartInterval.toNat)
  | .quantDefined t => .ok (ofBool s.quant.defined[t])
  | .quantTables t k => guarded s.quant.defined[t] (.number s.quant.tables[t][k].toNat)
  | .huffDefined c t => .ok (ofBool s.huff[c][t].defined)
  | .huffBits c t l => guarded s.huff[c][t].defined (.number s.huff[c][t].bits[l].toNat)
  | .huffSymCount c t => guarded s.huff[c][t].defined (.number s.huff[c][t].symCount.toNat)
  | .huffVals c t i => entry s.huff[c][t].defined (s.huff[c][t].values[i.val]?.map BitVec.toNat)
  | .arithDcLow i => guarded s.sawStartOfImage (.number s.arith.dcLow[i].toNat)
  | .arithDcHigh i => guarded s.sawStartOfImage (.number s.arith.dcHigh[i].toNat)
  | .arithAcK i => guarded s.sawStartOfImage (.number s.arith.acK[i].toNat)
  | .colorSpace => guarded s.sawStartOfImage (.number s.colorSpace.toNat)
  | .sawJfif => .ok (ofBool s.jfif.saw)
  | .jfifMajor => guarded s.sawStartOfImage (.number s.jfif.major.toNat)
  | .jfifMinor => guarded s.sawStartOfImage (.number s.jfif.minor.toNat)
  | .densityUnit => guarded s.sawStartOfImage (.number s.jfif.densityUnit.toNat)
  | .xDensity => guarded s.sawStartOfImage (.number s.jfif.xDensity.toNat)
  | .yDensity => guarded s.sawStartOfImage (.number s.jfif.yDensity.toNat)
  | .sawAdobe => .ok (ofBool s.adobe.saw)
  | .adobeVersion => guarded s.sawStartOfImage (.number s.adobe.version.toNat)
  | .adobeFlags0 => guarded s.sawStartOfImage (.number s.adobe.flags0.toNat)
  | .adobeFlags1 => guarded s.sawStartOfImage (.number s.adobe.flags1.toNat)
  | .adobeTransform => guarded s.sawStartOfImage (.number s.adobe.transform.toNat)
  | .events => .ok (.log s.events)

/-- A query of the host or the entropy stage (R42). It changes nothing: it answers a reading, not a state. The event log can be
read at any time (R46), every other element between two commands (R42; log entry 30). -/
def State.query (s : State) (e : Element) : Except Refusal Reading :=
  if s.activity = .idle ∨ e = .events then s.read e else .error .commandWhileRunning

end Sys2Proof.Machine
end

