-- ==== Sys2Proof/Safety.lean ====
section
/-! DEFINITION. What counts as a safe state and a safe run, in the terms the obligations use: the invariants of
`10_state.md` R40 with the shape of the state, what it means that bytes stand in the stream, and running a command to
its end. -/

namespace Sys2Proof.Machine

/-! ### The stream -/

/-- The bytes `bs` have been supplied at the positions from `a` on. -/
abbrev ByteSource.Holds (src : ByteSource) (a : Nat) (bs : List Byte) : Prop :=
  ∀ k, (h : k < bs.length) → src.peek (a + k) = some bs[k]

/-- The payload `p` stands behind its length field at `pos`, all of it supplied (R101). -/
abbrev State.Segment (s : State) (p : List Byte) : Prop :=
  p.length + 2 < 2 ^ 16 ∧ s.source.Holds s.pos.toNat (assemble p)

/-- `pos` can still be moved by `n` (R22). -/
abbrev State.Room (s : State) (n : Nat) : Prop := s.pos.toNat + n < 2 ^ 64

/-! ### Ends of a command -/

/-- What a fatal error leaves (R357): the latch written, the command ended with `FatalError`, all else kept. -/
abbrev State.failed (s : State) (code : BitVec 4) (info0 info1 : Half) : State :=
  { s with
      latch := { fatal := true, code := code, info0 := info0, info1 := info1 }
      result := .fatalError
      activity := .idle }

/-- What a suspension leaves (R356): the command ended with `Suspended`, all else kept. -/
abbrev State.suspended (s : State) : State := { s with result := .suspended, activity := .idle }

/-! ### The invariant -/

/-- R40 (a) to (e): the reader state against the seen flags and the scan counter. -/
abbrev State.ReaderInv (s : State) : Prop :=
  (s.rstate = .awaitingStartOfImage ↔ s.sawStartOfImage = false) ∧
  (s.rstate = .haveStartOfImage ↔ s.sawStartOfImage = true ∧ s.sawFrameHeader = false) ∧
  ((s.rstate = .haveFrameHeader ∨ s.rstate = .inScan) ↔ s.sawFrameHeader = true) ∧
  (s.rstate = .inScan ↔ s.scanCount ≠ 0) ∧
  (s.sawFrameHeader = true → s.sawStartOfImage = true)

/-- R40 (f) and (h): the pending marker. -/
abbrev State.PendingInv (s : State) : Prop :=
  s.pendingMarker ≠ 0xFF ∧ (s.rstate = .awaitingStartOfImage → s.pendingMarker = 0)

/-- R25, R40 (g): the latch registers are 0 while it is clear, and no command runs while it is set. -/
abbrev State.LatchInv (s : State) : Prop :=
  (s.latch.fatal = false → s.latch = FatalLatch.clear) ∧ (s.latch.fatal = true → s.activity = .idle)

/-- The frame-header codes a frame is accepted for (S10 of R20). -/
def acceptedFrameCodes : List Byte := [0xC0, 0xC1, 0xC2, 0xC9, 0xCA]

/-- S10 to S15 (R20, R29): allocated exactly when a frame header has been accepted, with legal values. -/
abbrev State.FrameInv (s : State) : Prop :=
  if s.sawFrameHeader then
    s.frame.marker ∈ acceptedFrameCodes ∧ s.frame.height ≠ 0 ∧ s.frame.width ≠ 0 ∧
    0 < s.frame.components.length ∧ s.frame.components.length = s.frame.componentCount.toNat
  else s.frame.components = []

/-- S16 to S19 (R20, R30): in a scan, one to four indices, each of a frame component that has been named. -/
abbrev State.ScanInv (s : State) : Prop :=
  s.rstate = .inScan →
    1 ≤ s.scan.componentCount.toNat ∧ s.scan.componentCount.toNat ≤ 4 ∧
    s.scan.componentIndex.length = s.scan.componentCount.toNat ∧
    ∀ j ∈ s.scan.componentIndex, (s.frame.components[j.toNat]?.map Component.scanned) = some true

/-- S25 to S28 (R35): a defined table has as many symbols as its counts announce, at most 256. -/
abbrev HuffTable.Ok (t : HuffTable) : Prop :=
  t.defined = true →
    t.values.length = t.symCount.toNat ∧ t.symCount.toNat = symbolCount t.bits.toList ∧ t.symCount.toNat ≤ 256

/-- S29 (R36): no low bound above its high bound. R36 promises it of bounds once written, which is from the start of image
on (R21, R161). -/
abbrev ArithRegs.Ordered (a : ArithRegs) : Prop := ∀ i : Fin 16, a.dcLow[i] ≤ a.dcHigh[i]

/-- The command in progress: a run of introducers it has swallowed stands in the stream behind `pos`; READ_MARKERS scans only
with no marker pending and past the start of image; READ_RESTART_MARKER runs only in a scan (R142, R281, R320, R323). -/
abbrev State.ActivityInv (s : State) : Prop :=
  (s.activity.run ≠ 0 → s.source.Holds s.pos.toNat (List.replicate (s.activity.run + 1) introducer)) ∧
  match s.activity with
  | .idle => True
  | .reading run => run ≠ 0 → s.pendingMarker = 0 ∧ s.rstate ≠ .awaitingStartOfImage
  | .restarting .seeking _ => s.rstate = .inScan ∧ s.pendingMarker = 0
  | .restarting .resyncing _ =>
    s.rstate = .inScan ∧ s.pendingMarker ≠ 0 ∧ classify s.pendingMarker s.nextRestartIndex = .scanForward

/-- A safe state: every invariant of R40 and the legal values of R20. -/
structure State.Inv (s : State) : Prop where
  memory   : Memory.wf s.source.bytes
  reader   : s.ReaderInv
  pending  : s.PendingInv
  latch    : s.LatchInv
  frame    : s.FrameInv
  scan     : s.ScanInv
  huff     : ∀ (c : Fin 2) (t : Fin 4), s.huff[c][t].Ok
  arith    : s.sawStartOfImage = true → s.arith.Ordered
  activity : s.ActivityInv

/-! ### Reset -/

/-- Column "power-on reset" of R44, as a query reads it (R21). -/
def Element.powerOn : Element → Except Refusal Reading
  | .pos | .rstate | .pendingMarker | .fatal | .fatalCode | .fatalInfo0 | .fatalInfo1 | .discardedByteCount
  | .sawStartOfImage | .sawFrameHeader | .scanCount | .nextRestartIndex | .quantDefined _ | .huffDefined _ _
  | .sawJfif | .sawAdobe => .ok (.number 0)
  | .events => .ok (.log [])
  | .frameMarker | .framePrecision | .imageHeight | .imageWidth | .frameComponentCount | .frameComponents _ _
  | .scanComponentCount | .scanComponentIndex _ | .spectralStart | .spectralEnd | .approxHigh | .approxLow
  | .restartInterval | .quantTables _ _ | .huffBits _ _ _ | .huffSymCount _ _ | .huffVals _ _ _
  | .arithDcLow _ | .arithDcHigh _ | .arithAcK _ | .colorSpace | .jfifMajor | .jfifMinor | .densityUnit | .xDensity
  | .yDensity | .adobeVersion | .adobeFlags0 | .adobeFlags1 | .adobeTransform => .error .noValue

/-- The rows of R44 whose column "RESET_STREAM" says "kept". In every other row that column and the column "power-on reset"
say the same. -/
def Element.keptByReset : Element → Bool
  | .quantDefined _ | .quantTables _ _ | .huffDefined _ _ | .huffBits _ _ _ | .huffSymCount _ _ | .huffVals _ _ _
  | .events => true
  | _ => false

/-! ### Runs -/

/-- The machine after `n` steps, when all of them answer a next state. -/
def runSteps : Nat → State → Option State
  | 0, s => some s
  | n + 1, s =>
    match step s with
    | .next s' => runSteps n s'
    | _ => none

end Sys2Proof.Machine
end

