-- ==== Sys2Proof/Certificates/Slice0/Obligations.lean ====
section
/-! DEFINITION. The statements about JPEG-MSP for the provers. Rule numbers R<n> are those of `spec/`; the docstring of each
says which sentence it formalises. -/

open Sys2Proof Sys2Proof.Machine

/-! ### Encoding -/

/-- R100, R113, R120: every word has one meaning and every instruction one word. -/
def Obligations.WordsAndInstructionsCorrespond : Prop :=
  (∀ i : Instr, i.wf → decodeWord (encode i) = some i) ∧
  (∀ code : Byte, encode (decodeCode code) = .marker (introducer ++ code)) ∧
  (∀ code : BitVec 2, encode (decodeCommand code) = .command code)

/-- R113, R120: words written out from the opcode map decode to the instructions they stand for. -/
def Obligations.SampleWordsDecode : Prop :=
  decodeWord (.marker 0xFF00) = some .stuff ∧ decodeWord (.marker 0xFFFF) = some .fill ∧
  decodeWord (.marker 0xFF01) = some .tem ∧ decodeWord (.marker 0xFF42) = some (.res 0x42) ∧
  decodeWord (.marker 0xFFC0) = some .sof0 ∧ decodeWord (.marker 0xFFC4) = some .dht ∧
  decodeWord (.marker 0xFFC8) = some .jpg ∧ decodeWord (.marker 0xFFCC) = some .dac ∧
  decodeWord (.marker 0xFFD3) = some .rst3 ∧ decodeWord (.marker 0xFFD8) = some .soi ∧
  decodeWord (.marker 0xFFD9) = some .eoi ∧ decodeWord (.marker 0xFFDA) = some .sos ∧
  decodeWord (.marker 0xFFDB) = some .dqt ∧ decodeWord (.marker 0xFFDD) = some .dri ∧
  decodeWord (.marker 0xFFE0) = some .app0 ∧ decodeWord (.marker 0xFFEE) = some .app14 ∧
  decodeWord (.marker 0xFFF7) = some .jpg7 ∧ decodeWord (.marker 0xFFFE) = some .com ∧
  decodeWord (.command 3) = some .readRestartMarker ∧ decodeWord (.marker 0xFED8) = none

/-- R102, R162: the payloads a frame header is accepted with are exactly the encodings of well-formed operands, and each
decodes to the operands it encodes. -/
def Obligations.FrameOperandsRoundTrip : Prop :=
  ∀ (code : Byte) (length : Half) (p : List Byte) (o : FrameOperands), p.length + 2 = length.toNat →
    (readFrame code length p = .ok o ↔ o.wf ∧ p = encodeFrame o)

/-- R103, R177: the same of scan headers. -/
def Obligations.ScanOperandsRoundTrip : Prop :=
  ∀ (length : Half) (p : List Byte) (o : ScanOperands), p.length + 2 = length.toNat →
    (readScan length p = .ok o ↔ o.wf ∧ p = encodeScan o)

/-- R104, R190: the same of the definitions of a quantisation segment. -/
def Obligations.QuantDefinitionsRoundTrip : Prop :=
  ∀ (length : Half) (p : List Byte) (defs : List QuantDef),
    readQuantDefs length p.length p = .ok defs ↔ (∀ d ∈ defs, d.wf) ∧ p = defs.flatMap encodeQuantDef

/-- R105, R191: the same of the definitions of a Huffman segment. -/
def Obligations.HuffDefinitionsRoundTrip : Prop :=
  ∀ (length : Half) (p : List Byte) (defs : List HuffDef),
    readHuffDefs length p.length p = .ok defs ↔ (∀ d ∈ defs, d.wf) ∧ p = defs.flatMap encodeHuffDef

/-- R106, R192: the same of the entries of an arithmetic-conditioning segment. -/
def Obligations.DacEntriesRoundTrip : Prop :=
  ∀ (length : Half) (p : List Byte) (es : List DacEntry),
    readDacEntries length p = .ok es ↔ (∀ e ∈ es, e.wf) ∧ p = es.flatMap encodeDacEntry

/-- R108, R109, R123: the examined payload bytes of a recognised application extension are exactly the encodings of its
operands. -/
def Obligations.ApplicationPayloadsRoundTrip : Prop :=
  (∀ (p : List Byte) (j : JfifOperands), readJfif p = some j ↔ p = encodeJfif j) ∧
  (∀ (p : List Byte) (a : AdobeOperands), readAdobe p = some a ↔ p = encodeAdobe a)

/-! ### Reset and commands -/

/-- R44: both columns, read through the host's queries (R21, R42): after power-on every element reads as the first column
says, and RESET_STREAM, legal in every state between commands, leaves every element as the second column says. That a query
of an element without a value is refused is R21 and R364 (d); that `sawJfif` and `sawAdobe` answer 0 is log entry 23. -/
def Obligations.ResetTable : Prop :=
  (∀ e : Element, State.reset.query e = e.powerOn) ∧
  ∀ s : State, s.activity = .idle → ∃ t, exec .resetStream s = .next t ∧
    ∀ e : Element, t.query e = if e.keptByReset then s.query e else e.powerOn

/-- R288, R358: RESET_STREAM always returns, whatever the latch. The values of the elements that hold no value (log entries 4
and 5) and of the new stream (log entry 10) are the model's choice. -/
def Obligations.ResetStreamReturns : Prop :=
  ∀ s : State, s.activity = .idle →
    exec .resetStream s = .next
      { State.reset with
          quant := s.quant
          huff := s.huff
          events := s.events
          config := s.config
          inputs := s.inputs
          freeCount := s.freeCount
          result := .resetDone }

/-- R289: NOP writes no state element and returns `Idle`, also while the latch is set. -/
def Obligations.NopReturnsIdle : Prop :=
  ∀ s : State, s.activity = .idle → exec .nop s = .next { s with result := .idle }

/-- R281: how READ_MARKERS begins: at once `FatalError` with nothing changed while the latch is set, else the head of its
loop. That a running command has states of its own between its turns is log entry 1. -/
def Obligations.ReadMarkersBegins : Prop :=
  ∀ s : State, s.activity = .idle →
    exec .readMarkers s = .next
      (if s.latch.fatal then { s with result := .fatalError } else { s with activity := .reading 0 })

/-- R320, R321, R324, R325, R326: READ_RESTART_MARKER on a state between commands, case by case. The states it goes on to
while it still has to scan are the model's (log entry 1). -/
def Obligations.ReadRestartMarkerCases : Prop :=
  ∀ s : State, s.activity = .idle →
    (s.latch.fatal = true → exec .readRestartMarker s = .next { s with result := .fatalError }) ∧
    (s.latch.fatal = false → s.rstate ≠ .inScan → exec .readRestartMarker s = .refused .restartOutsideScan) ∧
    (s.latch.fatal = false → s.rstate = .inScan →
      (s.pendingMarker = 0 → exec .readRestartMarker s = .next { s with activity := .restarting .seeking 0 }) ∧
      (s.pendingMarker = 0xD0 + s.nextRestartIndex.setWidth 8 →
        exec .readRestartMarker s = .next
          { s with pendingMarker := 0, nextRestartIndex := s.nextRestartIndex + 1, result := .restartOk }) ∧
      (s.pendingMarker ≠ 0 → s.pendingMarker ≠ 0xD0 + s.nextRestartIndex.setWidth 8 →
        let logged : List Event := s.events ++
          [{ kind := .mustResync, a := s.pendingMarker.setWidth 32, b := s.nextRestartIndex.setWidth 32 }]
        (classify s.pendingMarker s.nextRestartIndex = .leave →
          exec .readRestartMarker s = .next
            { s with events := logged, nextRestartIndex := s.nextRestartIndex + 1, result := .restartOk }) ∧
        (classify s.pendingMarker s.nextRestartIndex = .discard →
          exec .readRestartMarker s = .next
            { s with
                events := logged
                pendingMarker := 0
                nextRestartIndex := s.nextRestartIndex + 1
                result := .restartOk }) ∧
        (classify s.pendingMarker s.nextRestartIndex = .scanForward →
          exec .readRestartMarker s = .next
            { s with events := logged, activity := .restarting .resyncing 0 })))

/-- R322, R328: the classification, as a function of the code and of `(k - d) mod 8`. -/
def Obligations.ClassificationTable : Prop :=
  ∀ (m : Byte) (d : BitVec 3),
    (m < 0xC0 → classify m d = .scanForward) ∧
    (0xC0 ≤ m → (m < 0xD0 ∨ 0xD7 < m) → classify m d = .leave) ∧
    (∀ k : BitVec 3, m = 0xD0 + k.setWidth 8 →
      classify m d =
        match (k - d).toNat with
        | 1 | 2 => .leave
        | 6 | 7 => .scanForward
        | _ => .discard)

/-- R120, R364 (g): no command is accepted while another runs: it is refused by name (log entry 16). -/
def Obligations.CommandsRefusedWhileBusy : Prop :=
  ∀ s : State, s.activity ≠ .idle → ∀ i ∈ [Instr.nop, .resetStream, .readMarkers, .readRestartMarker],
    exec i s = .refused .commandWhileRunning

/-! ### Markers without a segment -/

/-- R241 to R249: the restart markers and the fill marker, met by READ_MARKERS, read no byte and write nothing; the pending
code is cleared. -/
def Obligations.InformationalMarkers : Prop :=
  ∀ i ∈ [Instr.rst0, .rst1, .rst2, .rst3, .rst4, .rst5, .rst6, .rst7, .tem], ∀ s : State,
    exec i s = .next { s with pendingMarker := 0 }

/-- R283: the end-of-stream marker is accepted in every state and ends READ_MARKERS; nothing else is written. -/
def Obligations.EndOfStreamMarker : Prop :=
  ∀ s : State, exec .eoi s = .next { s with pendingMarker := 0, result := .reachedEndOfStream, activity := .idle }

/-- R168 to R176, R250 to R267, R350, R351: the nine unsupported frame codes raise cause 9, every other code without a
decoder raises cause 10, always and with the code; no byte is read. -/
def Obligations.UnsupportedAndUnknownCodes : Prop :=
  (∀ ic ∈ [(Instr.sof3, (0xC3 : Byte)), (.sof5, 0xC5), (.sof6, 0xC6), (.sof7, 0xC7), (.jpg, 0xC8), (.sof11, 0xCB),
      (.sof13, 0xCD), (.sof14, 0xCE), (.sof15, 0xCF)], ∀ s : State,
    exec ic.1 s = .next (s.failed 9 (ic.2.setWidth 16) 0)) ∧
  (∀ (code : Byte) (s : State), exec (.res code) s = .next (s.failed 10 (code.setWidth 16) 0)) ∧
  ∀ ic ∈ [(Instr.dhp, (0xDE : Byte)), (.exp, 0xDF), (.jpg0, 0xF0), (.jpg1, 0xF1), (.jpg2, 0xF2), (.jpg3, 0xF3),
      (.jpg4, 0xF4), (.jpg5, 0xF5), (.jpg6, 0xF6), (.jpg7, 0xF7), (.jpg8, 0xF8), (.jpg9, 0xF9), (.jpg10, 0xFA),
      (.jpg11, 0xFB), (.jpg12, 0xFC), (.jpg13, 0xFD)], ∀ s : State,
    exec ic.1 s = .next (s.failed 10 (ic.2.setWidth 16) 0)

/-- R161: start of image: the per-stream defaults, once; a second one raises cause 1. -/
def Obligations.StartOfImage : Prop :=
  ∀ s : State,
    (s.sawStartOfImage = true → exec .soi s = .next (s.failed 1 0 0)) ∧
    (s.sawStartOfImage = false → exec .soi s = .next
      { s with
          arith :=
            { dcLow := Vector.replicate 16 0, dcHigh := Vector.replicate 16 1, acK := Vector.replicate 16 5 }
          restartInterval := 0
          colorSpace := 0
          jfif := { saw := false, major := 0, minor := 0, densityUnit := 0, xDensity := 0, yDensity := 0 }
          adobe := { saw := false, version := 0, flags0 := 0, flags1 := 0, transform := 0 }
          sawStartOfImage := true
          rstate := .haveStartOfImage
          pendingMarker := 0 })

/-! ### Frame and scan headers -/

/-- R162 to R167: a frame header whose whole segment stands at `pos` is accepted once per stream, with every operand it
admits. Nothing is said of the two entropy-table indices of a component, which hold no value (R29). -/
def Obligations.FrameHeaderAccepted : Prop :=
  ∀ ic ∈ [(Instr.sof0, (0xC0 : Byte)), (.sof1, 0xC1), (.sof2, 0xC2), (.sof9, 0xC9), (.sof10, 0xCA)],
    ∀ (o : FrameOperands) (s : State), o.wf → s.sawFrameHeader = false → s.Segment (encodeFrame o) →
      s.Room (3 * o.components.length + 8) →
      ∃ cs : List Component,
        cs.map (fun c => FrameComponent.mk c.id c.horizSampling c.vertSampling c.quantTableIndex) = o.components ∧
        (∀ c ∈ cs, c.scanned = false) ∧
        exec ic.1 s = .next
          { s with
              frame :=
                { marker := ic.2
                  precision := o.precision
                  height := o.height
                  width := o.width
                  componentCount := BitVec.ofNat 8 o.components.length
                  components := cs }
              sawFrameHeader := true
              rstate := .haveFrameHeader
              pos := BitVec.ofNat 64 (s.pos.toNat + (3 * o.components.length + 8))
              pendingMarker := 0
              freeCount := s.freeCount + 2 * o.components.length }

/-- R162, R343, R345, R346, R359: what a frame header is refused for, in the order of the tests: a second one before any
byte is read; a length below 2 as soon as it is read; then, on the whole segment, fewer than six payload bytes, an empty
image, a length that is not `3 * Nf + 8`. -/
def Obligations.FrameHeaderRefused : Prop :=
  ∀ ic ∈ [(Instr.sof0, (0xC0 : Byte)), (.sof1, 0xC1), (.sof2, 0xC2), (.sof9, 0xC9), (.sof10, 0xCA)], ∀ s : State,
    (s.sawFrameHeader = true → exec ic.1 s = .next (s.failed 2 (ic.2.setWidth 16) 0)) ∧
    (s.sawFrameHeader = false →
      (∀ l : Half, s.source.half s.pos.toNat = some l → l.toNat < 2 →
        exec ic.1 s = .next (s.failed 5 (ic.2.setWidth 16) l)) ∧
      (∀ p : List Byte, s.Segment p → p.length < 6 →
        exec ic.1 s = .next (s.failed 5 (ic.2.setWidth 16) (BitVec.ofNat 16 (p.length + 2)))) ∧
      (∀ (pr nf : Byte) (y x : Half) (rest : List Byte),
        s.Segment (pr :: (halfBytes y ++ (halfBytes x ++ nf :: rest))) →
        (y = 0 ∨ x = 0 ∨ nf = 0 → exec ic.1 s = .next (s.failed 4 y x)) ∧
        (y ≠ 0 → x ≠ 0 → nf ≠ 0 → rest.length ≠ 3 * nf.toNat →
          exec ic.1 s = .next (s.failed 5 (ic.2.setWidth 16) (BitVec.ofNat 16 (rest.length + 8))))))

/-- R177: a scan header whose whole segment stands at `pos`, with every selector naming a frame component, is accepted: `js`
are the least indices of the named components; of two scan components that name one frame component the later one's tables
stand; no other component and no other field of a component changes. -/
def Obligations.ScanHeaderAccepted : Prop :=
  ∀ (o : ScanOperands) (js : List Nat) (s : State), o.wf → s.sawFrameHeader = true → s.Segment (encodeScan o) →
    s.Room (2 * o.components.length + 6) →
    o.components.map (fun c => s.frame.components.findIdx? (fun f => f.id == c.selector)) = js.map some →
    ∃ cs : List Component,
      cs.length = s.frame.components.length ∧
      (∀ k, (h : k < s.frame.components.length) →
        cs[k]? = some
          (match (js.zip o.components).reverse.find? (fun jc => jc.1 == k) with
          | none => s.frame.components[k]
          | some jc =>
            { s.frame.components[k] with
                dcTableIndex := jc.2.dcTable, acTableIndex := jc.2.acTable, scanned := true })) ∧
      exec .sos s = .next
        { s with
            scan :=
              { componentCount := BitVec.ofNat 3 o.components.length
                componentIndex := js.map (BitVec.ofNat 8)
                spectralStart := o.spectralStart
                spectralEnd := o.spectralEnd
                approxHigh := o.approxHigh
                approxLow := o.approxLow }
            frame := { s.frame with components := cs }
            nextRestartIndex := 0
            scanCount := if s.scanCount = 0xFFFFFFFF then s.scanCount else s.scanCount + 1
            rstate := .inScan
            pos := BitVec.ofNat 64 (s.pos.toNat + (2 * o.components.length + 6))
            pendingMarker := 0
            result := .reachedScanStart
            activity := .idle }

/-- R177, R344, R346, R347, R359: what a scan header is refused for, in the order of the tests: no frame header before any
byte is read; a length below 2; then, on the whole segment, no payload byte, a component count outside 1..4 or a length that
is not `2 * Ns + 6`; then the first selector that names no frame component. -/
def Obligations.ScanHeaderRefused : Prop :=
  ∀ s : State,
    (s.sawFrameHeader = false → exec .sos s = .next (s.failed 3 0 0)) ∧
    (s.sawFrameHeader = true →
      (∀ l : Half, s.source.half s.pos.toNat = some l → l.toNat < 2 → exec .sos s = .next (s.failed 5 0xDA l)) ∧
      (s.Segment [] → exec .sos s = .next (s.failed 5 0xDA 2)) ∧
      (∀ (ns : Byte) (rest : List Byte), s.Segment (ns :: rest) →
        (ns.toNat < 1 ∨ 4 < ns.toNat ∨ rest.length ≠ 2 * ns.toNat + 3) →
          exec .sos s = .next (s.failed 5 0xDA (BitVec.ofNat 16 (rest.length + 3)))) ∧
      (∀ (o : ScanOperands) (pre post : List ScanComponent) (bad : ScanComponent), o.wf → s.Segment (encodeScan o) →
        o.components = pre ++ bad :: post →
        (∀ c ∈ pre, ∃ f ∈ s.frame.components, f.id = c.selector) →
        (∀ f ∈ s.frame.components, f.id ≠ bad.selector) →
        exec .sos s = .next (s.failed 6 (bad.selector.setWidth 16) 0)))

/-! ### Table segments -/

/-- R117, R190: the zigzag table is the printed one, a permutation of the 64 positions, and every list of well-formed
definitions is accepted; of two definitions of one table the later stands, its `k`-th coefficient stored at the natural-order
position `ZIGZAG[k]`; a table that is not defined keeps its content and flag. -/
def Obligations.QuantTablesDefined : Prop :=
  (zigzag.map Fin.val =
      [0, 1, 8, 16, 9, 2, 3, 10] ++ [17, 24, 32, 25, 18, 11, 4, 5] ++ [12, 19, 26, 33, 40, 48, 41, 34] ++
      [27, 20, 13, 6, 7, 14, 21, 28] ++ [35, 42, 49, 56, 57, 50, 43, 36] ++ [29, 22, 15, 23, 30, 37, 44, 51] ++
      [58, 59, 52, 45, 38, 31, 39, 46] ++ [53, 60, 61, 54, 47, 55, 62, 63] ∧
    ∀ z : Fin 64, zigzag.count z = 1) ∧
  ∀ (defs : List QuantDef) (s : State), (∀ d ∈ defs, d.wf) → s.Segment (defs.flatMap encodeQuantDef) →
    s.Room ((defs.flatMap encodeQuantDef).length + 2) →
    ∃ q : QuantRegs,
      (∀ t : Fin 4,
        match defs.reverse.find? (fun d => d.table == t) with
        | none => q.defined[t] = s.quant.defined[t] ∧ q.tables[t] = s.quant.tables[t]
        | some d =>
          q.defined[t] = true ∧
          ∀ k : Fin 64, ∀ z, zigzag[k.val]? = some z → d.coeffs[k.val]? = some (q.tables[t][z])) ∧
      exec .dqt s = .next
        { s with
            quant := q
            pos := BitVec.ofNat 64 (s.pos.toNat + ((defs.flatMap encodeQuantDef).length + 2))
            pendingMarker := 0 }

/-- R190, R346, R348: behind any accepted definitions, a table index of 4 or more raises cause 7 with the index, and a
definition that runs past the payload raises cause 5; none of the segment's definitions is applied. -/
def Obligations.QuantSegmentRefused : Prop :=
  ∀ s : State,
    (∀ l : Half, s.source.half s.pos.toNat = some l → l.toNat < 2 → exec .dqt s = .next (s.failed 5 0xDB l)) ∧
    (∀ (defs : List QuantDef) (pq tq : Nibble) (rest : List Byte), (∀ d ∈ defs, d.wf) →
      s.Segment (defs.flatMap encodeQuantDef ++ packNibbles pq tq :: rest) →
      (4 ≤ tq.toNat → exec .dqt s = .next (s.failed 7 0xDB (tq.setWidth 16))) ∧
      (tq.toNat < 4 → rest.length < (if pq = 0 then 64 else 128) →
        exec .dqt s = .next
          (s.failed 5 0xDB (BitVec.ofNat 16 ((defs.flatMap encodeQuantDef).length + rest.length + 3)))))

/-- R191: every list of well-formed definitions is accepted; the counts and symbols of the last definition of a table are
stored verbatim; a table that is not defined keeps its content. -/
def Obligations.HuffTablesDefined : Prop :=
  ∀ (defs : List HuffDef) (s : State), (∀ d ∈ defs, d.wf) → s.Segment (defs.flatMap encodeHuffDef) →
    s.Room ((defs.flatMap encodeHuffDef).length + 2) →
    ∃ h : HuffRegs,
      (∀ (c : Fin 2) (t : Fin 4),
        h[c][t] =
          match defs.reverse.find? (fun d => d.bank == c && d.table == t) with
          | none => s.huff[c][t]
          | some d =>
            { defined := true, bits := d.counts, symCount := BitVec.ofNat 9 (symbolCount d.counts.toList)
              values := d.values }) ∧
      exec .dht s = .next
        { s with
            huff := h
            pos := BitVec.ofNat 64 (s.pos.toNat + ((defs.flatMap encodeHuffDef).length + 2))
            pendingMarker := 0 }

/-- R191, R346, R348, R353: behind any accepted definitions, fewer than seventeen bytes raise cause 5; then a symbol count
over 256 or over the bytes left raises cause 12 with both numbers; then a class above 1 or a table above 3 raises cause 7
with the whole index byte. -/
def Obligations.HuffSegmentRefused : Prop :=
  ∀ s : State,
    (∀ l : Half, s.source.half s.pos.toNat = some l → l.toNat < 2 → exec .dht s = .next (s.failed 5 0xC4 l)) ∧
    (∀ (defs : List HuffDef) (b : Byte) (rest : List Byte), (∀ d ∈ defs, d.wf) →
      s.Segment (defs.flatMap encodeHuffDef ++ b :: rest) →
      (rest.length < 16 →
        exec .dht s = .next
          (s.failed 5 0xC4 (BitVec.ofNat 16 ((defs.flatMap encodeHuffDef).length + rest.length + 3)))) ∧
      (∀ counts values : List Byte, rest = counts ++ values → counts.length = 16 →
        (256 < symbolCount counts ∨ values.length < symbolCount counts →
          exec .dht s = .next
            (s.failed 12 (BitVec.ofNat 16 (symbolCount counts)) (BitVec.ofNat 16 values.length))) ∧
        (symbolCount counts ≤ 256 → symbolCount counts ≤ values.length →
          (2 ≤ (highNibble b).toNat ∨ 4 ≤ (lowNibble b).toNat) →
          exec .dht s = .next (s.failed 7 0xC4 (b.setWidth 16)))))

/-- R106, R192: every list of well-formed entries is accepted; the last entry of an index stands: an index below 16 sets the
two bounds, one from 16 on the single parameter; what no entry names is kept. -/
def Obligations.ArithConditioned : Prop :=
  ∀ (es : List DacEntry) (s : State), (∀ e ∈ es, e.wf) → s.Segment (es.flatMap encodeDacEntry) →
    s.Room (2 * es.length + 2) →
    ∃ a : ArithRegs,
      (∀ i : Fin 16,
        (match es.reverse.find? (fun e => e.index.val == i.val) with
          | none => a.dcLow[i] = s.arith.dcLow[i] ∧ a.dcHigh[i] = s.arith.dcHigh[i]
          | some e => a.dcLow[i] = lowNibble e.value ∧ a.dcHigh[i] = highNibble e.value) ∧
        (match es.reverse.find? (fun e => e.index.val == i.val + 16) with
          | none => a.acK[i] = s.arith.acK[i]
          | some e => a.acK[i] = e.value)) ∧
      exec .dac s = .next
        { s with arith := a, pos := BitVec.ofNat 64 (s.pos.toNat + (2 * es.length + 2)), pendingMarker := 0 }

/-- R192, R346, R348, R349: behind any accepted entries, a single last byte raises cause 5, an index of 32 or more cause 7,
and a DC-class entry whose low bound exceeds its high bound cause 8. -/
def Obligations.ArithSegmentRefused : Prop :=
  ∀ s : State,
    (∀ l : Half, s.source.half s.pos.toNat = some l → l.toNat < 2 → exec .dac s = .next (s.failed 5 0xCC l)) ∧
    (∀ (es : List DacEntry) (index : Byte), (∀ e ∈ es, e.wf) →
      (s.Segment (es.flatMap encodeDacEntry ++ [index]) →
        exec .dac s = .next (s.failed 5 0xCC (BitVec.ofNat 16 (2 * es.length + 3)))) ∧
      (∀ (high low : Nibble) (rest : List Byte),
        s.Segment (es.flatMap encodeDacEntry ++ index :: packNibbles high low :: rest) →
        (32 ≤ index.toNat → exec .dac s = .next (s.failed 7 0xCC (index.setWidth 16))) ∧
        (index.toNat < 16 → high.toNat < low.toNat →
          exec .dac s = .next (s.failed 8 (index.setWidth 16) ((packNibbles high low).setWidth 16)))))

/-- R193: the restart-interval segment, whole: a length that is not 4 fails as soon as it is read; the value of a complete
segment is stored; otherwise the command suspends. -/
def Obligations.RestartIntervalSegment : Prop :=
  ∀ s : State,
    (s.source.avail < s.pos.toNat + 2 → exec .dri s = .next s.suspended) ∧
    (∀ l : Half, s.source.half s.pos.toNat = some l →
      (l ≠ 4 → exec .dri s = .next (s.failed 5 0xDD l)) ∧
      (l = 4 → s.source.avail < s.pos.toNat + 4 → exec .dri s = .next s.suspended)) ∧
    (∀ ri : Half, s.Segment (halfBytes ri) → s.Room 4 →
      exec .dri s = .next
        { s with restartInterval := ri, pos := BitVec.ofNat 64 (s.pos.toNat + 4), pendingMarker := 0 })

/-! ### Skipped and recognised segments -/

/-- R224 to R240: a skip kind needs its two length bytes only and moves `pos` by `max(L, 2)`; nothing else is written. An
application extension whose recogniser is off is a skip kind (R223). -/
def Obligations.SkippedSegments : Prop :=
  ∀ (i : Instr) (s : State),
    (i ∈ [Instr.app1, .app2, .app3, .app4, .app5, .app6, .app7, .app8, .app9, .app10, .app11, .app12, .app13, .app15,
        .com, .dnl] ∨ i = .app0 ∧ s.config.app0 = false ∨ i = .app14 ∧ s.config.app14 = false) →
    (s.source.avail < s.pos.toNat + 2 → exec i s = .next s.suspended) ∧
    (∀ l : Half, s.source.half s.pos.toNat = some l → s.Room (max l.toNat 2) →
      exec i s = .next { s with pos := BitVec.ofNat 64 (s.pos.toNat + max l.toNat 2), pendingMarker := 0 })

/-- R220: a recognised JFIF segment: the length and the first fourteen payload bytes suffice; the two warnings in their
order; the registers; `L` bytes consumed. -/
def Obligations.JfifRecognised : Prop :=
  ∀ (l : Half) (j : JfifOperands) (s : State), s.config.app0 = true → 16 ≤ l.toNat →
    s.source.Holds s.pos.toNat (halfBytes l ++ encodeJfif j) → s.Room l.toNat →
    exec .app0 s = .next
      { s with
          events := s.events ++
            (if j.major = 1 then []
              else [{ kind := .jfifMajorMismatch, a := j.major.setWidth 32, b := j.minor.setWidth 32 }]) ++
            (if j.thumbWidth.toNat * j.thumbHeight.toNat * 3 = l.toNat - 16 then []
              else
                [{ kind := .badThumbnailSize
                   a := BitVec.ofNat 32 (l.toNat - 16)
                   b := BitVec.ofNat 32 (j.thumbWidth.toNat * 256 + j.thumbHeight.toNat) }])
          jfif :=
            { saw := true, major := j.major, minor := j.minor, densityUnit := j.densityUnit, xDensity := j.xDensity
              yDensity := j.yDensity }
          pos := BitVec.ofNat 64 (s.pos.toNat + l.toNat)
          pendingMarker := 0 }

/-- R222: a recognised Adobe segment: the length and the first twelve payload bytes suffice; the registers; `L` bytes
consumed. -/
def Obligations.AdobeRecognised : Prop :=
  ∀ (l : Half) (a : AdobeOperands) (s : State), s.config.app14 = true → 14 ≤ l.toNat →
    s.source.Holds s.pos.toNat (halfBytes l ++ encodeAdobe a) → s.Room l.toNat →
    exec .app14 s = .next
      { s with
          adobe :=
            { saw := true, version := a.version, flags0 := a.flags0, flags1 := a.flags1, transform := a.transform }
          pos := BitVec.ofNat 64 (s.pos.toNat + l.toNat)
          pendingMarker := 0 }

/-- R220 (a) to (c), R221, R222 (a), (b): a recogniser waits for the bytes it examines, and a segment that is too short or
does not begin with the signature is skipped: `max(L, 2)` bytes consumed, nothing recorded, no event. -/
def Obligations.UnmatchedExtensionsSkipped : Prop :=
  ∀ (i : Instr) (fixed : Nat) (signature : List Byte) (s : State),
    (i = .app0 ∧ s.config.app0 = true ∧ fixed = 14 ∧ signature = [0x4A, 0x46, 0x49, 0x46, 0x00] ∨
      i = .app14 ∧ s.config.app14 = true ∧ fixed = 12 ∧ signature = [0x41, 0x64, 0x6F, 0x62, 0x65]) →
    (s.source.avail < s.pos.toNat + 2 → exec i s = .next s.suspended) ∧
    (∀ l : Half, s.source.half s.pos.toNat = some l →
      (s.source.avail < s.pos.toNat + 2 + min (l.toNat - 2) fixed → exec i s = .next s.suspended) ∧
      (s.pos.toNat + 2 + min (l.toNat - 2) fixed ≤ s.source.avail → s.Room (max l.toNat 2) →
        (l.toNat < fixed + 2 ∨ ¬s.source.Holds (s.pos.toNat + 2) signature) →
        exec i s = .next { s with pos := BitVec.ofNat 64 (s.pos.toNat + max l.toNat 2), pendingMarker := 0 }))

/-! ### Suspension and fatal errors -/

/-- R160, R356: a buffered kind suspends exactly while its length or its declared segment is not there, and has then written
nothing: the pending code and `pos` stand for the retry. -/
def Obligations.BufferedKindsSuspend : Prop :=
  ∀ (i : Instr) (s : State),
    (i ∈ [Instr.sof0, .sof1, .sof2, .sof9, .sof10] ∧ s.sawFrameHeader = false ∨
      i = .sos ∧ s.sawFrameHeader = true ∨ i ∈ [Instr.dqt, .dht, .dac]) →
    (exec i s = .next s.suspended ↔
      s.source.avail < s.pos.toNat + 2 ∨
        ∃ l : Half, s.source.half s.pos.toNat = some l ∧ 2 ≤ l.toNat ∧ s.source.avail < s.pos.toNat + l.toNat)

/-- R357: a fatal error is precise. Whatever instruction sets the latch writes nothing else and ends the command; no
instruction clears it but RESET_STREAM. -/
def Obligations.FatalErrorsArePrecise : Prop :=
  ∀ (i : Instr) (s t : State), i ≠ .resetStream → exec i s = .next t → t.latch ≠ s.latch →
    ∃ (cause : FatalCause) (info0 info1 : Half), t = s.failed cause.code info0 info1 ∧ t.latch.code ≠ 0

/-- R25, R358: while the latch is set, no step but RESET_STREAM's changes a state element of the core; only the byte source,
the owner of `colorSpace`, the queue of inputs and the result port move. -/
def Obligations.LatchIsSticky : Prop :=
  ∀ s t : State, s.latch.fatal = true → s.activity = .idle → s.inputs.head? ≠ some (.command 1) → step s = .next t →
    t = { s with inputs := t.inputs, source := t.source, colorSpace := t.colorSpace, result := t.result }

/-! ### The scanner and the steps of a command -/

/-- R143, R144: the two escapes. FILL writes no state element, only the Cursor moves; STUFF consumes the run and the zero
byte and counts exactly 2, whatever the length of the run. The Cursor kept between two turns is the model's (log
entry 1). -/
def Obligations.Escapes : Prop :=
  ∀ (s : State) (run : Nat),
    (s.activity = .reading run → exec .fill s = .next { s with activity := .reading (run + 1) }) ∧
    (∀ phase, s.activity = .restarting phase run →
      exec .fill s = .next { s with activity := .restarting phase (run + 1) }) ∧
    (s.Room (run + 2) →
      (s.activity = .reading run → exec .stuff s = .next
        { s with
            discardedByteCount := BitVec.ofNat 32 (min (s.discardedByteCount.toNat + 2) 0xFFFFFFFF)
            pos := BitVec.ofNat 64 (s.pos.toNat + (run + 2))
            activity := .reading 0 }) ∧
      (∀ phase, s.activity = .restarting phase run → exec .stuff s = .next
        { s with
            discardedByteCount := BitVec.ofNat 32 (min (s.discardedByteCount.toNat + 2) 0xFFFFFFFF)
            pos := BitVec.ofNat 64 (s.pos.toNat + (run + 2))
            activity := .restarting phase 0 }))

/-- R142, R145: one turn of `NextMarker` under READ_MARKERS, from a Cursor that has swallowed `run` further introducers. The
cut into turns is the model's (log entry 1). -/
def Obligations.ScannerTurn : Prop :=
  ∀ (s : State) (run : Nat), s.activity = .reading run → s.pendingMarker = 0 → s.rstate ≠ .awaitingStartOfImage →
    (run = 0 → s.source.peek s.pos.toNat = none → step s = .next s.suspended) ∧
    (∀ b, run = 0 → s.source.peek s.pos.toNat = some b → b ≠ 0xFF → s.Room 1 →
      step s = .next
        { s with
            discardedByteCount := BitVec.ofNat 32 (min (s.discardedByteCount.toNat + 1) 0xFFFFFFFF)
            pos := BitVec.ofNat 64 (s.pos.toNat + 1)
            activity := .reading 0 }) ∧
    ((run = 0 → s.source.peek s.pos.toNat = some 0xFF) →
      (s.source.peek (s.pos.toNat + run + 1) = none → step s = .next s.suspended) ∧
      (s.source.peek (s.pos.toNat + run + 1) = some 0xFF → step s = exec .fill s) ∧
      (s.source.peek (s.pos.toNat + run + 1) = some 0x00 → step s = exec .stuff s) ∧
      (∀ c, s.source.peek (s.pos.toNat + run + 1) = some c → c ≠ 0x00 → c ≠ 0xFF → s.Room (run + 2) →
        step s = exec (decodeCode c)
          { s with
              events := s.events ++
                (if s.discardedByteCount = 0 then []
                  else [{ kind := .extraneousData, a := s.discardedByteCount, b := c.setWidth 32 }])
              discardedByteCount := 0
              pendingMarker := c
              pos := BitVec.ofNat 64 (s.pos.toNat + (run + 2))
              activity := .reading 0 }))

/-- R146, R352: `FirstMarker`: it waits for two bytes, fails citing both unless they are `FF D8`, and then runs the start
of image. That this is one turn of the command is the model's (log entry 1). -/
def Obligations.FirstMarkerTurn : Prop :=
  ∀ (s : State) (run : Nat), s.activity = .reading run → s.pendingMarker = 0 → s.rstate = .awaitingStartOfImage →
    (s.source.avail < s.pos.toNat + 2 → step s = .next s.suspended) ∧
    (∀ c1 c2, s.source.Holds s.pos.toNat [c1, c2] →
      (¬(c1 = 0xFF ∧ c2 = 0xD8) → step s = .next (s.failed 11 (c1.setWidth 16) (c2.setWidth 16))) ∧
      (c1 = 0xFF ∧ c2 = 0xD8 → s.Room 2 →
        step s = exec .soi
          { s with
              pendingMarker := 0xD8
              pos := BitVec.ofNat 64 (s.pos.toNat + 2)
              activity := .reading 0 }))

/-- R320, R323: one turn of `NextMarker` under READ_RESTART_MARKER. The marker found is classified, not decoded: while
seeking, the expected one succeeds and any other enters `Resync`; while resynchronising, it is classified again. The cut
into turns is the model's (log entry 1). -/
def Obligations.RestartScanTurn : Prop :=
  ∀ (s : State) (phase : RestartPhase) (run : Nat), s.activity = .restarting phase run →
    (run = 0 → s.source.peek s.pos.toNat = none → step s = .next s.suspended) ∧
    (∀ b, run = 0 → s.source.peek s.pos.toNat = some b → b ≠ 0xFF → s.Room 1 →
      step s = .next
        { s with
            discardedByteCount := BitVec.ofNat 32 (min (s.discardedByteCount.toNat + 1) 0xFFFFFFFF)
            pos := BitVec.ofNat 64 (s.pos.toNat + 1)
            activity := .restarting phase 0 }) ∧
    ((run = 0 → s.source.peek s.pos.toNat = some 0xFF) →
      (s.source.peek (s.pos.toNat + run + 1) = none → step s = .next s.suspended) ∧
      (s.source.peek (s.pos.toNat + run + 1) = some 0xFF → step s = exec .fill s) ∧
      (s.source.peek (s.pos.toNat + run + 1) = some 0x00 → step s = exec .stuff s) ∧
      (∀ c, s.source.peek (s.pos.toNat + run + 1) = some c → c ≠ 0x00 → c ≠ 0xFF → s.Room (run + 2) →
        let found : State :=
          { s with
              events := s.events ++
                (if s.discardedByteCount = 0 then []
                  else [{ kind := .extraneousData, a := s.discardedByteCount, b := c.setWidth 32 }])
              discardedByteCount := 0
              pendingMarker := c
              pos := BitVec.ofNat 64 (s.pos.toNat + (run + 2)) }
        (phase = .seeking → s.rstate = .inScan → s.latch.fatal = false →
          step s = exec .readRestartMarker { found with activity := .idle }) ∧
        (phase = .resyncing →
          step s =
            match classify c s.nextRestartIndex with
            | .scanForward => .next { found with activity := .restarting .resyncing 0 }
            | .leave => .next
              { found with
                  nextRestartIndex := s.nextRestartIndex + 1, result := .restartOk, activity := .idle }
            | .discard => .next
              { found with
                  pendingMarker := 0
                  nextRestartIndex := s.nextRestartIndex + 1
                  result := .restartOk
                  activity := .idle })))

/-- R120, R142, R281: a step runs the decoded instruction: the command at the head of an idle core's inputs; the marker that
is pending; or what the bytes at `pos` decode to, an escape as it stands and a marker once it is acquired. The turns of a
command are the model's (log entry 1), and so is the list of inputs (log entry 9). -/
def Obligations.StepRunsDecoded : Prop :=
  ∀ s : State,
    (∀ code rest, s.activity = .idle → s.inputs = .command code :: rest →
      step s = exec (decodeCommand code) { s with inputs := rest }) ∧
    (∀ run, s.activity = .reading run → s.pendingMarker ≠ 0 → s.pendingMarker ≠ 0xFF →
      step s = exec (decodeCode s.pendingMarker) s) ∧
    (∀ bs i rest, s.activity = .reading 0 → s.pendingMarker = 0 → s.rstate ≠ .awaitingStartOfImage →
      s.source.Holds s.pos.toNat bs → decode bs = .ok (i, rest) →
      (i = .fill ∨ i = .stuff → step s = exec i s) ∧
      (i ≠ .fill → i ≠ .stuff → s.discardedByteCount = 0 → s.Room 2 →
        ∃ code, encode i = .marker (introducer ++ code) ∧
          step s = exec i
            { s with pendingMarker := code, pos := BitVec.ofNat 64 (s.pos.toNat + 2) }))

/-! ### The environment -/

/-- R70, R72, R73, R75, R76, R327, R37: what a step takes from outside while the core is idle, case by case.
That it comes as a list of inputs is log entry 9, that a fill or an accounting is accepted behind a raised `eod` log entry 29. -/
def Obligations.EnvironmentTurns : Prop :=
  ∀ (s : State) (rest : List Input), s.activity = .idle →
    (s.inputs = [] → step s = .next s) ∧
    (∀ bs, s.inputs = .fill bs :: rest →
      step s = .next { s with inputs := rest, source := s.source.fill bs }) ∧
    (∀ n, s.inputs = .account n :: rest →
      step s = if s.source.avail + n ≤ s.pos.toNat
        then .next { s with inputs := rest, source := { s.source with avail := s.source.avail + n } }
        else .refused .sourceDuty) ∧
    (s.inputs = .endOfData :: rest →
      step s = .next { s with inputs := rest, source := { s.source with eod := true } }) ∧
    (∀ v, s.inputs = .setColorSpace v :: rest → step s = .next { s with inputs := rest, colorSpace := v })

/-- R327: the entropy stage consumes coded data or hands over a marker only in a scan, with the latch clear, within the
bytes supplied and with no marker pending; anything else is refused. A consumption that would carry `pos` past `2^64 - 1` is in
`PositionOverflowRefused`. The list of inputs is log entry 9, the refusals are log entry 19. -/
def Obligations.EntropyStageLiberties : Prop :=
  ∀ (s : State) (rest : List Input), s.activity = .idle →
    (∀ n, s.inputs = .consume n :: rest →
      (s.rstate = .inScan → s.latch.fatal = false → s.pos.toNat + n ≤ s.source.avail → s.Room n →
        step s = .next { s with inputs := rest, pos := BitVec.ofNat 64 (s.pos.toNat + n) }) ∧
      (s.rstate ≠ .inScan ∨ s.latch.fatal = true ∨ s.source.avail < s.pos.toNat + n →
        step s = .refused .entropyLiberty)) ∧
    (∀ code, s.inputs = .handOver code :: rest →
      (s.rstate = .inScan → s.latch.fatal = false → s.pendingMarker = 0 → code ≠ 0x00 → code ≠ 0xFF →
        step s = .next { s with inputs := rest, pendingMarker := code }) ∧
      (s.rstate ≠ .inScan ∨ s.latch.fatal = true ∨ s.pendingMarker ≠ 0 ∨ code = 0x00 ∨ code = 0xFF →
        step s = .refused .entropyLiberty))

/-- R71, R72: a fill makes its bytes readable in their order behind those already supplied, and changes no byte already
supplied. -/
def Obligations.FillSuppliesBytes : Prop :=
  ∀ (src : ByteSource) (bs : List Byte), Memory.wf src.bytes →
    (src.fill bs).Holds src.avail bs ∧ (∀ a, a < src.avail → (src.fill bs).peek a = src.peek a) ∧
    ∀ a, src.avail + bs.length ≤ a → (src.fill bs).peek a = none

/-- R22, R364 (c): what would carry `pos` past `2^64 - 1` is refused, kind by kind: a skip, a recognised or unmatched
application extension, each buffered kind with operands it would accept, the stuffed literal, the commits of the two scanners, and the
entropy stage's consumption of coded data. Where the refusal falls is log entry 15. -/
def Obligations.PositionOverflowRefused : Prop :=
  ∀ s : State,
    (∀ (i : Instr) (l : Half),
      (i ∈ [Instr.app1, .app2, .app3, .app4, .app5, .app6, .app7, .app8, .app9, .app10, .app11, .app12, .app13, .app15,
          .com, .dnl] ∨ i = .app0 ∧ s.config.app0 = false ∨ i = .app14 ∧ s.config.app14 = false ∨
        i = .app0 ∧ s.config.app0 = true ∧ s.pos.toNat + 2 + min (l.toNat - 2) 14 ≤ s.source.avail ∨
        i = .app14 ∧ s.config.app14 = true ∧ s.pos.toNat + 2 + min (l.toNat - 2) 12 ≤ s.source.avail) →
      s.source.half s.pos.toNat = some l → ¬s.Room (max l.toNat 2) → exec i s = .refused .positionOverflow) ∧
    (∀ p : List Byte, s.Segment p → ¬s.Room (p.length + 2) →
      (∀ ic ∈ [(Instr.sof0, (0xC0 : Byte)), (.sof1, 0xC1), (.sof2, 0xC2), (.sof9, 0xC9), (.sof10, 0xCA)],
        ∀ o : FrameOperands, o.wf → p = encodeFrame o → s.sawFrameHeader = false →
          exec ic.1 s = .refused .positionOverflow) ∧
      (∀ o : ScanOperands, o.wf → p = encodeScan o → s.sawFrameHeader = true →
        (∀ c ∈ o.components, ∃ f ∈ s.frame.components, f.id = c.selector) →
        exec .sos s = .refused .positionOverflow) ∧
      (∀ defs : List QuantDef, (∀ d ∈ defs, d.wf) → p = defs.flatMap encodeQuantDef →
        exec .dqt s = .refused .positionOverflow) ∧
      (∀ defs : List HuffDef, (∀ d ∈ defs, d.wf) → p = defs.flatMap encodeHuffDef →
        exec .dht s = .refused .positionOverflow) ∧
      (∀ es : List DacEntry, (∀ e ∈ es, e.wf) → p = es.flatMap encodeDacEntry →
        exec .dac s = .refused .positionOverflow) ∧
      (∀ ri : Half, p = halfBytes ri → exec .dri s = .refused .positionOverflow)) ∧
    (¬s.Room (s.activity.run + 2) → exec .stuff s = .refused .positionOverflow) ∧
    (∀ run, s.activity = .reading run → s.pendingMarker = 0 → s.rstate = .awaitingStartOfImage →
      s.source.Holds s.pos.toNat [0xFF, 0xD8] → ¬s.Room 2 → step s = .refused .positionOverflow) ∧
    (∀ run, (s.activity = .reading run ∧ s.pendingMarker = 0 ∧ s.rstate ≠ .awaitingStartOfImage ∨
        ∃ phase, s.activity = .restarting phase run) →
      (∀ b, run = 0 → s.source.peek s.pos.toNat = some b → b ≠ 0xFF → ¬s.Room 1 →
        step s = .refused .positionOverflow) ∧
      (∀ c, (run = 0 → s.source.peek s.pos.toNat = some 0xFF) →
        s.source.peek (s.pos.toNat + run + 1) = some c → c ≠ 0x00 → c ≠ 0xFF → ¬s.Room (run + 2) →
        step s = .refused .positionOverflow)) ∧
    (∀ n rest, s.activity = .idle → s.inputs = .consume n :: rest → s.rstate = .inScan → s.latch.fatal = false →
      s.pos.toNat + n ≤ s.source.avail → ¬s.Room n → step s = .refused .positionOverflow)

/-! ### Frames -/

/-- What the marker instructions leave alone (R41, R71, R84 and the rule of each): whatever the outcome, a marker
instruction writes the pending code, the latch, the result and the end of the command, and of everything else only what its
group names; in particular no byte of the stream. NOP, READ_MARKERS and the escapes write no more than the result, the
activity, the garbage counter and `pos`; READ_RESTART_MARKER the pending code, the restart index, the log and the end of the
command; RESET_STREAM keeps the tables, the log, the configuration and the inputs. -/
def Obligations.InstructionFrames : Prop :=
  ∀ (i : Instr) (s t : State), exec i s = .next t →
    let ended (u : State) : State :=
      { u with pendingMarker := t.pendingMarker, latch := t.latch, result := t.result, activity := t.activity }
    (i ∈ [Instr.rst0, .rst1, .rst2, .rst3, .rst4, .rst5, .rst6, .rst7, .tem, .eoi, .dhp, .exp, .jpg0, .jpg1, .jpg2,
        .jpg3, .jpg4, .jpg5, .jpg6, .jpg7, .jpg8, .jpg9, .jpg10, .jpg11, .jpg12, .jpg13, .sof3, .sof5, .sof6, .sof7,
        .jpg, .sof11, .sof13, .sof14, .sof15] ∨ (∃ code, i = .res code) → t = ended s) ∧
    (i ∈ [Instr.app1, .app2, .app3, .app4, .app5, .app6, .app7, .app8, .app9, .app10, .app11, .app12, .app13, .app15,
        .com, .dnl] → t = ended { s with pos := t.pos }) ∧
    (i = .app0 → t = ended { s with pos := t.pos, jfif := t.jfif, events := t.events }) ∧
    (i = .app14 → t = ended { s with pos := t.pos, adobe := t.adobe }) ∧
    (i = .dqt → t = ended { s with pos := t.pos, quant := t.quant }) ∧
    (i = .dht → t = ended { s with pos := t.pos, huff := t.huff }) ∧
    (i = .dac → t = ended { s with pos := t.pos, arith := t.arith }) ∧
    (i = .dri → t = ended { s with pos := t.pos, restartInterval := t.restartInterval }) ∧
    (i = .soi → t = ended
      { s with
          arith := t.arith
          restartInterval := t.restartInterval
          colorSpace := t.colorSpace
          jfif := t.jfif
          adobe := t.adobe
          sawStartOfImage := t.sawStartOfImage
          rstate := t.rstate }) ∧
    (i ∈ [Instr.sof0, .sof1, .sof2, .sof9, .sof10] → t = ended
      { s with
          pos := t.pos
          frame := t.frame
          sawFrameHeader := t.sawFrameHeader
          rstate := t.rstate
          freeCount := t.freeCount }) ∧
    (i = .sos → t = ended
      { s with
          pos := t.pos
          frame := { s.frame with components := t.frame.components }
          scan := t.scan
          scanCount := t.scanCount
          nextRestartIndex := t.nextRestartIndex
          rstate := t.rstate }) ∧
    (i = .nop → t = { s with result := t.result, activity := t.activity }) ∧
    (i = .readMarkers → t = { s with result := t.result, activity := t.activity }) ∧
    (i = .fill → t = { s with activity := t.activity }) ∧
    (i = .stuff →
      t = { s with pos := t.pos, discardedByteCount := t.discardedByteCount, activity := t.activity }) ∧
    (i = .readRestartMarker → t =
      { s with
          pendingMarker := t.pendingMarker
          nextRestartIndex := t.nextRestartIndex
          events := t.events
          result := t.result
          activity := t.activity }) ∧
    (i = .resetStream →
      t.quant = s.quant ∧ t.huff = s.huff ∧ t.events = s.events ∧ t.config = s.config ∧ t.inputs = s.inputs ∧
      t.freeCount = s.freeCount)

/-! ### The whole machine -/

/-- R44, R40: the state after reset is safe. -/
def Obligations.ResetIsSafe : Prop := State.reset.Inv

/-- R40 with the legal values of R20, R25, R29, R30, R35, R36: every step, from every safe state, leaves a safe state. -/
def Obligations.StepKeepsInvariant : Prop := ∀ s t : State, s.Inv → step s = .next t → t.Inv

/-- R71, R47, R70: no step of a running command writes the stream, supplies bytes, or touches the configuration or the
inputs; and no step at all but RESET_STREAM's changes a byte already supplied. Every step keeps the canonical form of the
memory. That a byte below `pos` stays readable is log entry 26, the place of the configuration log entry 8, the canonical form
the model's own. -/
def Obligations.StreamIsReadOnly : Prop :=
  ∀ s t : State, step s = .next t →
    t.config = s.config ∧
    (s.activity ≠ .idle → t.source = s.source ∧ t.inputs = s.inputs) ∧
    (Memory.wf s.source.bytes → s.inputs.head? ≠ some (.command 1) → ∀ a, a < s.source.avail →
      t.source.peek a = s.source.peek a) ∧
    (Memory.wf s.source.bytes → Memory.wf t.source.bytes)

/-- R22, R292: `pos` never decreases within a stream. -/
def Obligations.PositionNeverDecreases : Prop :=
  ∀ s t : State, step s = .next t → ¬(s.activity = .idle ∧ s.inputs.head? = some (.command 1)) → s.pos ≤ t.pos

/-- R46, R355: the event log is append-only, whatever happens. -/
def Obligations.EventLogAppendOnly : Prop :=
  ∀ s t : State, step s = .next t → s.events <+: t.events

/-- R23, R285, R27: within a stream the reader state goes one step forward or stays, and the seen flags are never cleared. -/
def Obligations.ReaderStateGoesForward : Prop :=
  ∀ s t : State, s.Inv → step s = .next t → ¬(s.activity = .idle ∧ s.inputs.head? = some (.command 1)) →
    (t.rstate = s.rstate ∨ t.rstate.code = s.rstate.code + 1 ∧ s.rstate ≠ .inScan) ∧
    (s.sawStartOfImage = true → t.sawStartOfImage = true) ∧ (s.sawFrameHeader = true → t.sawFrameHeader = true)

/-- R28, R29: once allocated, the frame registers are immutable within the stream, but for the two entropy-table indices of
the components. -/
def Obligations.FrameIsImmutable : Prop :=
  ∀ s t : State, s.sawFrameHeader = true → step s = .next t →
    ¬(s.activity = .idle ∧ s.inputs.head? = some (.command 1)) →
    t.frame = { s.frame with components := t.frame.components } ∧
    t.frame.components.map (fun c => FrameComponent.mk c.id c.horizSampling c.vertSampling c.quantTableIndex) =
      s.frame.components.map (fun c => FrameComponent.mk c.id c.horizSampling c.vertSampling c.quantTableIndex)

/-- R34, R35, R41: a step changes a quantisation or Huffman table only while READ_MARKERS runs, by the table segment of that
kind: what the step fetched is DQT, respectively DHT, with its code `0xDB` or `0xC4` pending. No command, no environment action
and no other marker changes them. -/
def Obligations.TablesChangedByTheirSegments : Prop :=
  ∀ s t : State, step s = .next t →
    (t.quant ≠ s.quant → ∃ u run, s.activity = .reading run ∧ fetch s = .instr .dqt u ∧ u.pendingMarker = 0xDB ∧
      u.quant = s.quant ∧ exec .dqt u = .next t) ∧
    (t.huff ≠ s.huff → ∃ u run, s.activity = .reading run ∧ fetch s = .instr .dht u ∧ u.pendingMarker = 0xC4 ∧
      u.huff = s.huff ∧ exec .dht u = .next t)

/-- R120, R364: from a safe state no step faults, and while a command runs no step is refused unless `pos` would pass `2^64
- 1`. -/
def Obligations.SafeStatesGoOn : Prop :=
  ∀ s : State, s.Inv →
    (∀ f, step s ≠ .fault f) ∧ (s.activity ≠ .idle → ∀ r, step s = .refused r → r = .positionOverflow)

/-- R284, R287, R329: a running command ends with a result of its own set. Of READ_MARKERS the reader state, the latch and
the pending marker are then as R284 says: 0 for a suspension in the scanner and for a `FirstMarker` that fails, else the code of
the decoder that suspends or fails, which the last turn ran (`u` is the state it was entered in). Of READ_RESTART_MARKER the
restart index has advanced exactly with `RestartOk`. The turns of a command are the model's (log entry 1). -/
def Obligations.ResultsOfCommands : Prop :=
  (∀ (s t : State) (run : Nat), s.Inv → s.activity = .reading run → step s = .next t → t.activity = .idle →
    t.result = .suspended ∧ t.latch.fatal = false ∧ t.rstate = s.rstate ∧
      (t.pendingMarker = 0 ∧ t = s.suspended ∨
        t.pendingMarker ≠ 0 ∧ ∃ u, fetch s = .instr (decodeCode t.pendingMarker) u ∧ t = u.suspended) ∨
    t.result = .reachedScanStart ∧ t.latch.fatal = false ∧ t.rstate = .inScan ∧ t.pendingMarker = 0 ∧
      t.nextRestartIndex = 0 ∨
    t.result = .reachedEndOfStream ∧ t.latch.fatal = false ∧ t.rstate = s.rstate ∧ t.pendingMarker = 0 ∨
    t.result = .fatalError ∧ t.latch.fatal = true ∧ t.rstate = s.rstate ∧
      (t.pendingMarker = 0 ∧ s.rstate = .awaitingStartOfImage ∧ t.latch.code = 11 ∨
        t.pendingMarker ≠ 0 ∧ ∃ (u : State) (cause : FatalCause) (info0 info1 : Half),
          fetch s = .instr (decodeCode t.pendingMarker) u ∧ t = u.failed cause.code info0 info1)) ∧
  ∀ (s t : State) (phase : RestartPhase) (run : Nat), s.Inv → s.activity = .restarting phase run → step s = .next t →
    t.activity = .idle →
    t.result = .suspended ∧ t.nextRestartIndex = s.nextRestartIndex ∧ t.pendingMarker = s.pendingMarker ∧
      t.events = s.events ∧ t.latch = s.latch ∨
    t.result = .restartOk ∧ t.nextRestartIndex = s.nextRestartIndex + 1 ∧
      (t.pendingMarker = 0 ∨ 0xC0 ≤ t.pendingMarker) ∧ t.latch = s.latch

/-- R393, R356: a command always ends: from a safe state, with room for one more segment behind the bytes supplied, the core
is idle again after at most one step per byte supplied and two more. The steps counted are the model's (log entries 1 and 24),
no time. -/
def Obligations.CommandsEnd : Prop :=
  ∀ s : State, s.Inv → s.source.avail + 2 ^ 16 ≤ 2 ^ 64 →
    ∃ n t, n ≤ s.source.avail - s.pos.toNat + 2 ∧ runSteps n s = some t ∧
      (s.activity ≠ .idle → t.activity = .idle ∧ t.source = s.source ∧ t.inputs = s.inputs)

/-- R290, R147, R160: determinism under chunking, for one split: a READ_MARKERS that suspended on the first bytes and is
retried when the rest has come ends in the very state, log and result in which it would have ended had all bytes been there.
The list of inputs is log entry 9, the steps of a command log entry 1. -/
def Obligations.ChunkingDoesNotMatter : Prop :=
  ∀ (s u w : State) (xs ys : List Byte) (n m : Nat), s.Inv → s.activity = .idle → s.latch.fatal = false →
    runSteps n { s with inputs := [.fill xs, .command 2] } = some u → u.inputs = [] → u.activity = .idle →
    u.result = .suspended →
    runSteps m { u with inputs := [.fill ys, .command 2] } = some w → w.inputs = [] → w.activity = .idle →
    ∃ k, runSteps k { s with inputs := [.fill (xs ++ ys), .command 2] } = some w

/-- R21, R42, R46: what a query answers. The event log can be read at any time, every other element only between commands (log
entry 30). From a safe idle state an element without a guard answers the number it holds, `sawJfif` and `sawAdobe` among them
(R44; log entry 23); an element that may hold no value answers the number it holds exactly when its guard holds. -/
def Obligations.QueriesAreGuarded : Prop :=
  ∀ s : State,
    s.query .events = .ok (.log s.events) ∧
    (s.activity ≠ .idle → ∀ e, e ≠ .events → s.query e = .error .commandWhileRunning) ∧
    (s.Inv → s.activity = .idle →
      (∀ er ∈ [(Element.pos, s.pos.toNat), (.rstate, s.rstate.code.toNat), (.pendingMarker, s.pendingMarker.toNat),
          (.fatal, s.latch.fatal.toNat), (.fatalCode, s.latch.code.toNat), (.fatalInfo0, s.latch.info0.toNat),
          (.fatalInfo1, s.latch.info1.toNat), (.discardedByteCount, s.discardedByteCount.toNat),
          (.sawStartOfImage, s.sawStartOfImage.toNat), (.sawFrameHeader, s.sawFrameHeader.toNat),
          (.scanCount, s.scanCount.toNat), (.nextRestartIndex, s.nextRestartIndex.toNat),
          (.sawJfif, s.jfif.saw.toNat), (.sawAdobe, s.adobe.saw.toNat)],
        s.query er.1 = .ok (.number er.2)) ∧
      (∀ er ∈ [(Element.frameMarker, s.frame.marker.toNat), (.framePrecision, s.frame.precision.toNat),
          (.imageHeight, s.frame.height.toNat), (.imageWidth, s.frame.width.toNat),
          (.frameComponentCount, s.frame.componentCount.toNat)],
        s.query er.1 = if s.sawFrameHeader then .ok (.number er.2) else .error .noValue) ∧
      (∀ er ∈ [(Element.scanComponentCount, s.scan.componentCount.toNat), (.spectralStart, s.scan.spectralStart.toNat),
          (.spectralEnd, s.scan.spectralEnd.toNat), (.approxHigh, s.scan.approxHigh.toNat),
          (.approxLow, s.scan.approxLow.toNat)],
        s.query er.1 = if s.rstate = .inScan then .ok (.number er.2) else .error .noValue) ∧
      (∀ i : Fin 4, ((∃ r, s.query (.scanComponentIndex i) = .ok r) ↔
          s.rstate = .inScan ∧ i.val < s.scan.componentCount.toNat) ∧
        ∀ r, s.query (.scanComponentIndex i) = .ok r →
          s.scan.componentIndex[i.val]?.map (fun j => Reading.number j.toNat) = some r) ∧
      (∀ (i : Fin 255) (f : ComponentField), (∃ r, s.query (.frameComponents i f) = .ok r) ↔
        ∃ c, s.frame.components[i.val]? = some c ∧ (f = .dcTableIndex ∨ f = .acTableIndex → c.scanned = true)) ∧
      (∀ (i : Fin 255) (c : Component), s.frame.components[i.val]? = some c →
        ∀ fn ∈ [(ComponentField.id, c.id.toNat), (.horizSampling, c.horizSampling.toNat),
            (.vertSampling, c.vertSampling.toNat), (.quantTableIndex, c.quantTableIndex.toNat),
            (.dcTableIndex, c.dcTableIndex.toNat), (.acTableIndex, c.acTableIndex.toNat)],
          ∀ r, s.query (.frameComponents i fn.1) = .ok r → r = .number fn.2) ∧
      (∀ (t : Fin 4) (k : Fin 64), s.query (.quantDefined t) = .ok (.number s.quant.defined[t].toNat) ∧
        s.query (.quantTables t k) =
          if s.quant.defined[t] then .ok (.number s.quant.tables[t][k].toNat) else .error .noValue) ∧
      (∀ (c : Fin 2) (t : Fin 4), s.query (.huffDefined c t) = .ok (.number s.huff[c][t].defined.toNat) ∧
        ∀ l : Fin 16, ∀ er ∈ [(Element.huffBits c t l, s.huff[c][t].bits[l].toNat),
            (.huffSymCount c t, s.huff[c][t].symCount.toNat)],
          s.query er.1 = if s.huff[c][t].defined then .ok (.number er.2) else .error .noValue) ∧
      (∀ (c : Fin 2) (t : Fin 4) (i : Fin 256), ((∃ r, s.query (.huffVals c t i) = .ok r) ↔
          s.huff[c][t].defined = true ∧ i.val < s.huff[c][t].symCount.toNat) ∧
        ∀ r, s.query (.huffVals c t i) = .ok r →
          s.huff[c][t].values[i.val]?.map (fun v => Reading.number v.toNat) = some r) ∧
      (∀ i : Fin 16, ∀ er ∈ [(Element.arithDcLow i, s.arith.dcLow[i].toNat), (.arithDcHigh i, s.arith.dcHigh[i].toNat),
          (.arithAcK i, s.arith.acK[i].toNat)],
        s.query er.1 = if s.sawStartOfImage then .ok (.number er.2) else .error .noValue) ∧
      (∀ er ∈ [(Element.restartInterval, s.restartInterval.toNat), (.colorSpace, s.colorSpace.toNat),
          (.jfifMajor, s.jfif.major.toNat), (.jfifMinor, s.jfif.minor.toNat), (.densityUnit, s.jfif.densityUnit.toNat),
          (.xDensity, s.jfif.xDensity.toNat), (.yDensity, s.jfif.yDensity.toNat),
          (.adobeVersion, s.adobe.version.toNat), (.adobeFlags0, s.adobe.flags0.toNat),
          (.adobeFlags1, s.adobe.flags1.toNat), (.adobeTransform, s.adobe.transform.toNat)],
        s.query er.1 = if s.sawStartOfImage then .ok (.number er.2) else .error .noValue))
end

