-- ==== Sys2Proof/Laws/Decode.lean ====
section
/-! SUPPORT. Which codes the opcode map gives which row (`30_encoding.md` R113), and what a decoded instruction can be. -/

namespace Sys2Proof.Laws

/-- The last line of the map is reached by the reserved codes only. -/
theorem decodeCode_res_iff (code : Byte) : decodeCode code = .res code ↔ 0x02 ≤ code ∧ code ≤ 0xBF := by
  revert code; decide

/-- A RES row carries its own code. -/
theorem decodeCode_eq_res {code c : Byte} (h : decodeCode code = .res c) : code = c ∧ 0x02 ≤ c ∧ c ≤ 0xBF := by
  have hc : code = c := by
    unfold decodeCode at h
    split at h <;> first | exact Instr.res.inj h | cases h
  subst hc
  exact ⟨rfl, (decodeCode_res_iff code).1 h⟩

/-- Every decoded instruction is well formed. -/
theorem decodeCode_wf (code : Byte) : (decodeCode code).wf := by
  cases h : decodeCode code <;> first | exact (decodeCode_eq_res h).2 | trivial

/-- FILL is the code `0xFF`. -/
theorem decodeCode_fill_iff (code : Byte) : decodeCode code = .fill ↔ code = 0xFF := by revert code; decide

/-- STUFF is the code `0x00`. -/
theorem decodeCode_stuff_iff (code : Byte) : decodeCode code = .stuff ↔ code = 0x00 := by revert code; decide

/-- SOI is the code `0xD8`. -/
theorem decodeCode_soi_iff (code : Byte) : decodeCode code = .soi ↔ code = 0xD8 := by revert code; decide

/-- No code of the stream is a command. -/
theorem decodeCode_ne_command (code : Byte) :
    decodeCode code ≠ .nop ∧ decodeCode code ≠ .resetStream ∧ decodeCode code ≠ .readMarkers ∧
      decodeCode code ≠ .readRestartMarker := by revert code; decide

/-- The four command codes (R120). -/
theorem decodeCommand_cases (code : BitVec 2) :
    decodeCommand code = .nop ∨ decodeCommand code = .resetStream ∨ decodeCommand code = .readMarkers ∨
      decodeCommand code = .readRestartMarker := by revert code; decide

/-- The bytes of a marker word (R79). -/
theorem markerBytes_append (hi lo : Byte) : markerBytes (hi ++ lo) = [hi, lo] := by
  simp only [markerBytes, List.cons.injEq, and_true]
  constructor
  · exact BitVec.extractLsb'_append_eq_left
  · exact BitVec.extractLsb'_append_eq_right

end Sys2Proof.Laws
end

