-- ==== Sys2Proof/Laws/Memory.lean ====
section
/-! SUPPORT. The stream memory (`20_memory.md` R70 to R76): every operation keeps the canonical form, a read after a write
gives the value written, a write leaves every other position alone, and what a fill leaves readable. -/

namespace Sys2Proof.Machine

/-! ### Canonical form -/

theorem Memory.wf_nil : Memory.wf [] := by simp [Memory.wf]

theorem Memory.wf_cons {k : Nat} {v : Byte} {m : List Host.Cell} :
    Memory.wf ((k, v) :: m) ↔ (∀ c ∈ m, k < c.1) ∧ v ≠ Memory.blank ∧ Memory.wf m := by
  simp only [Memory.wf, List.pairwise_cons, List.forall_mem_cons]; tauto

/-- A position below all listed ones is unlisted. -/
theorem Memory.read_of_lt {m : List Host.Cell} {a : Nat} (h : ∀ c ∈ m, a < c.1) : Memory.read m a = Memory.blank := by
  induction m with
  | nil => rfl
  | cons c m ih =>
    obtain ⟨k, v⟩ := c
    have hk : a < k := h (k, v) (by simp)
    simp only [Memory.read, if_neg (by omega : ¬k = a)]
    exact ih fun c hc => h c (by simp [hc])

/-- The positions a write leaves listed. -/
theorem Memory.mem_write {m : List Host.Cell} {a : Nat} {b : Byte} {c : Host.Cell}
    (h : c ∈ Memory.write m a b) : c = (a, b) ∨ c ∈ m := by
  induction m with
  | nil => simp only [Memory.write] at h; split at h <;> simp_all
  | cons d m ih =>
    obtain ⟨k, v⟩ := d
    simp only [Memory.write] at h
    split_ifs at h with h1 h2 h3 h4
    · exact .inr h
    · simpa using h
    · exact .inr (by simp [h])
    · rcases List.mem_cons.1 h with h | h
      · exact .inl h
      · exact .inr (by simp [h])
    · rcases List.mem_cons.1 h with h | h
      · exact .inr (by simp [h])
      · rcases ih h with h | h
        · exact .inl h
        · exact .inr (by simp [h])

theorem Memory.write_wf {m : List Host.Cell} (a : Nat) (b : Byte) (h : Memory.wf m) : Memory.wf (Memory.write m a b) := by
  induction m with
  | nil =>
    simp only [Memory.write]; split
    · exact Memory.wf_nil
    · rename_i hb; exact Memory.wf_cons.2 ⟨by simp, hb, Memory.wf_nil⟩
  | cons d m ih =>
    obtain ⟨k, v⟩ := d
    obtain ⟨hlt, hv, hm⟩ := Memory.wf_cons.1 h
    simp only [Memory.write]
    split_ifs with h1 h2 h3 h4
    · exact h
    · exact Memory.wf_cons.2 ⟨fun c hc => (List.mem_cons.1 hc).elim (· ▸ h1) fun hc => h1.trans (hlt c hc), h2, h⟩
    · exact hm
    · exact Memory.wf_cons.2 ⟨fun c hc => h3 ▸ hlt c hc, h4, hm⟩
    · refine Memory.wf_cons.2 ⟨fun c hc => ?_, hv, ih hm⟩
      rcases Memory.mem_write hc with rfl | hc
      · exact (show k < a by omega)
      · exact hlt c hc

theorem Memory.writeBytes_wf {m : List Host.Cell} (a : Nat) (bs : List Byte) (h : Memory.wf m) :
    Memory.wf (Memory.writeBytes m a bs) := by
  induction bs generalizing m a with
  | nil => exact h
  | cons b bs ih => exact ih _ (Memory.write_wf a b h)

theorem Memory.erase_wf {m : List Host.Cell} (a n : Nat) (h : Memory.wf m) : Memory.wf (Memory.erase m a n) :=
  ⟨h.1.filter _, fun c hc => h.2 c (List.mem_of_mem_filter hc)⟩

/-! ### Read after write -/

theorem Memory.read_write {m : List Host.Cell} (a : Nat) (b : Byte) (c : Nat) (h : Memory.wf m) :
    Memory.read (Memory.write m a b) c = if a = c then b else Memory.read m c := by
  induction m with
  | nil =>
    simp only [Memory.write]; split
    · rename_i hb; simp [Memory.read, hb]
    · simp [Memory.read]
  | cons d m ih =>
    obtain ⟨k, v⟩ := d
    obtain ⟨hlt, hv, hm⟩ := Memory.wf_cons.1 h
    rcases Nat.lt_trichotomy a k with hak | rfl | hak
    · have hbelow : Memory.read ((k, v) :: m) a = Memory.blank :=
        Memory.read_of_lt fun c hc => (List.mem_cons.1 hc).elim (fun h => h ▸ hak) fun hc => hak.trans (hlt c hc)
      simp only [Memory.write, if_pos hak]
      by_cases hb : b = Memory.blank <;> by_cases hac : a = c
      · subst hac; simp [hb, hbelow]
      · simp [hb, hac]
      · subst hac; simp [hb, Memory.read]
      · rw [if_neg hb, if_neg hac, Memory.read, if_neg hac]
    · simp only [Memory.write, lt_irrefl, if_false, if_true]
      by_cases hb : b = Memory.blank <;> by_cases hac : a = c
      · subst hac; simp [hb, Memory.read_of_lt hlt]
      · simp [hb, hac, Memory.read]
      · subst hac; simp [hb, Memory.read]
      · rw [if_neg hb, if_neg hac, Memory.read, if_neg hac, Memory.read, if_neg hac]
    · simp only [Memory.write, if_neg (by omega : ¬a < k), if_neg (by omega : ¬a = k), Memory.read, ih hm]
      by_cases hkc : k = c
      · simp [hkc, show a ≠ c by omega]
      · simp [hkc]

theorem Memory.read_write_self {m : List Host.Cell} (a : Nat) (b : Byte) (h : Memory.wf m) :
    Memory.read (Memory.write m a b) a = b := by simp [Memory.read_write a b a h]

theorem Memory.read_write_of_ne {m : List Host.Cell} {a c : Nat} (b : Byte) (h : Memory.wf m) (hac : a ≠ c) :
    Memory.read (Memory.write m a b) c = Memory.read m c := by simp [Memory.read_write a b c h, hac]

theorem Memory.read_writeBytes_of_lt {m : List Host.Cell} {a c : Nat} (bs : List Byte) (h : Memory.wf m) (hc : c < a) :
    Memory.read (Memory.writeBytes m a bs) c = Memory.read m c := by
  induction bs generalizing m a with
  | nil => rfl
  | cons b bs ih =>
    rw [Memory.writeBytes, ih (Memory.write_wf a b h) (by omega), Memory.read_write_of_ne b h (by omega)]

theorem Memory.read_writeBytes {m : List Host.Cell} {a : Nat} (bs : List Byte) (k : Nat) (hk : k < bs.length)
    (h : Memory.wf m) : Memory.read (Memory.writeBytes m a bs) (a + k) = bs[k] := by
  induction bs generalizing m a k with
  | nil => simp at hk
  | cons b bs ih =>
    cases k with
    | zero =>
      rw [Memory.writeBytes, Memory.read_writeBytes_of_lt bs (Memory.write_wf a b h) (by omega)]
      exact Memory.read_write_self a b h
    | succ k =>
      rw [Memory.writeBytes, show a + (k + 1) = a + 1 + k by omega, ih k (by simpa using hk) (Memory.write_wf a b h)]
      rfl

theorem Memory.writeBytes_append (m : List Host.Cell) (a : Nat) (bs cs : List Byte) :
    Memory.writeBytes m a (bs ++ cs) = Memory.writeBytes (Memory.writeBytes m a bs) (a + bs.length) cs := by
  induction bs generalizing m a with
  | nil => rfl
  | cons b bs ih =>
    simp only [List.cons_append, Memory.writeBytes, ih, List.length_cons]
    congr 1; omega

/-- In canonical form equal contents are equal data. -/
theorem Memory.ext_of_read {m m' : List Host.Cell} (h : Memory.wf m) (h' : Memory.wf m')
    (hr : ∀ a, Memory.read m a = Memory.read m' a) : m = m' := by
  induction m generalizing m' with
  | nil =>
    cases m' with
    | nil => rfl
    | cons d m' =>
      obtain ⟨k, v⟩ := d
      have := hr k
      simp only [Memory.read, if_true] at this
      exact absurd this.symm (Memory.wf_cons.1 h').2.1
  | cons c m ih =>
    obtain ⟨k, v⟩ := c
    obtain ⟨hlt, hv, hm⟩ := Memory.wf_cons.1 h
    cases m' with
    | nil =>
      have := hr k
      simp only [Memory.read, if_true] at this
      exact absurd this hv
    | cons d m' =>
      obtain ⟨k', v'⟩ := d
      obtain ⟨hlt', hv', hm'⟩ := Memory.wf_cons.1 h'
      have hk : k = k' := by
        rcases Nat.lt_trichotomy k k' with hkk | hkk | hkk
        · have := hr k
          rw [Memory.read_of_lt (m := (k', v') :: m') fun c hc =>
            (List.mem_cons.1 hc).elim (fun h => h ▸ hkk) fun hc => hkk.trans (hlt' c hc)] at this
          simp only [Memory.read, if_true] at this
          exact absurd this hv
        · exact hkk
        · have := hr k'
          rw [Memory.read_of_lt (m := (k, v) :: m) fun c hc =>
            (List.mem_cons.1 hc).elim (fun h => h ▸ hkk) fun hc => hkk.trans (hlt c hc)] at this
          simp only [Memory.read, if_true] at this
          exact absurd this.symm hv'
      subst hk
      have hvv : v = v' := by simpa [Memory.read] using hr k
      subst hvv
      congr 1
      refine ih hm hm' fun a => ?_
      rcases eq_or_ne k a with rfl | hka
      · rw [Memory.read_of_lt hlt, Memory.read_of_lt hlt']
      · simpa [Memory.read, hka] using hr a

/-! ### The read primitives -/

theorem ByteSource.has_iff (src : ByteSource) (a n : Nat) : src.has a n = true ↔ a + n ≤ src.avail := by
  simp [ByteSource.has]

theorem ByteSource.has_of_le {src : ByteSource} {a n : Nat} (h : a + n ≤ src.avail) : src.has a n = true :=
  (src.has_iff a n).2 h

theorem ByteSource.has_of_lt {src : ByteSource} {a n : Nat} (h : src.avail < a + n) : src.has a n = false := by
  simp [ByteSource.has]; omega

theorem ByteSource.peek_eq_some {src : ByteSource} {a : Nat} {b : Byte} :
    src.peek a = some b ↔ a < src.avail ∧ Memory.read src.bytes a = b := by
  simp only [ByteSource.peek]; split <;> simp_all

theorem ByteSource.peek_eq_none {src : ByteSource} {a : Nat} : src.peek a = none ↔ src.avail ≤ a := by
  simp only [ByteSource.peek]; split <;> simp_all

theorem ByteSource.half_eq_some {src : ByteSource} {a : Nat} {h : Half} :
    src.half a = some h ↔
      a + 2 ≤ src.avail ∧ be16 (Memory.read src.bytes a) (Memory.read src.bytes (a + 1)) = h := by
  simp only [ByteSource.half, ByteSource.has]
  by_cases hb : a + 2 ≤ src.avail <;> simp [hb]

theorem ByteSource.half_eq_none {src : ByteSource} {a : Nat} : src.half a = none ↔ src.avail < a + 2 := by
  simp only [ByteSource.half, ByteSource.has]
  by_cases hb : a + 2 ≤ src.avail
  · simp [hb]
  · simp only [hb, decide_false, Bool.false_eq_true, if_false, true_iff]; omega

@[simp] theorem ByteSource.take_length (src : ByteSource) (a n : Nat) : (src.take a n).length = n := by
  induction n generalizing a with
  | zero => rfl
  | succ n ih => simp [ByteSource.take, ih]

theorem ByteSource.take_getElem (src : ByteSource) (a n k : Nat) (h : k < (src.take a n).length) :
    (src.take a n)[k] = Memory.read src.bytes (a + k) := by
  induction n generalizing a k with
  | zero => simp at h
  | succ n ih =>
    cases k with
    | zero => simp [ByteSource.take]
    | succ k => simp only [ByteSource.take, List.getElem_cons_succ, ih]; congr 1; omega

/-! ### Filling -/

@[simp] theorem ByteSource.fill_avail (src : ByteSource) (bs : List Byte) :
    (src.fill bs).avail = src.avail + bs.length := rfl

@[simp] theorem ByteSource.fill_eod (src : ByteSource) (bs : List Byte) : (src.fill bs).eod = src.eod := rfl

theorem ByteSource.fill_wf {src : ByteSource} (bs : List Byte) (h : Memory.wf src.bytes) :
    Memory.wf (src.fill bs).bytes := Memory.writeBytes_wf _ _ h

/-- A fill changes no byte already supplied. -/
theorem ByteSource.peek_fill_of_lt {src : ByteSource} {a : Nat} (bs : List Byte) (h : Memory.wf src.bytes)
    (ha : a < src.avail) : (src.fill bs).peek a = src.peek a := by
  simp only [ByteSource.peek, ByteSource.fill, Memory.read_writeBytes_of_lt bs h ha, if_pos ha,
    if_pos (show a < src.avail + bs.length by omega)]

/-- The bytes of a fill become readable in their order. -/
theorem ByteSource.peek_fill {src : ByteSource} (bs : List Byte) (h : Memory.wf src.bytes) (k : Nat)
    (hk : k < bs.length) : (src.fill bs).peek (src.avail + k) = some bs[k] := by
  simp only [ByteSource.peek, ByteSource.fill, Memory.read_writeBytes bs k hk h,
    if_pos (show src.avail + k < src.avail + bs.length by omega)]

/-- Two fills are one fill of both. -/
theorem ByteSource.fill_append (src : ByteSource) (bs cs : List Byte) :
    (src.fill bs).fill cs = src.fill (bs ++ cs) := by
  simp [ByteSource.fill, Memory.writeBytes_append, Nat.add_assoc]

end Sys2Proof.Machine
end

