-- ==== Sys2Proof/Laws/State.lean ====
section
/-! SUPPORT. One lemma per field for every named update of the state (`10_state.md` R20): a later proof reads a field through an
update without unfolding the record. -/

namespace Sys2Proof.Machine

section Finish
variable (s : State) (r : Result)

@[simp] theorem State.finish_pos : (s.finish r).pos = s.pos := rfl
@[simp] theorem State.finish_rstate : (s.finish r).rstate = s.rstate := rfl
@[simp] theorem State.finish_pendingMarker : (s.finish r).pendingMarker = s.pendingMarker := rfl
@[simp] theorem State.finish_latch : (s.finish r).latch = s.latch := rfl
@[simp] theorem State.finish_discardedByteCount : (s.finish r).discardedByteCount = s.discardedByteCount := rfl
@[simp] theorem State.finish_sawStartOfImage : (s.finish r).sawStartOfImage = s.sawStartOfImage := rfl
@[simp] theorem State.finish_sawFrameHeader : (s.finish r).sawFrameHeader = s.sawFrameHeader := rfl
@[simp] theorem State.finish_frame : (s.finish r).frame = s.frame := rfl
@[simp] theorem State.finish_scan : (s.finish r).scan = s.scan := rfl
@[simp] theorem State.finish_scanCount : (s.finish r).scanCount = s.scanCount := rfl
@[simp] theorem State.finish_nextRestartIndex : (s.finish r).nextRestartIndex = s.nextRestartIndex := rfl
@[simp] theorem State.finish_restartInterval : (s.finish r).restartInterval = s.restartInterval := rfl
@[simp] theorem State.finish_quant : (s.finish r).quant = s.quant := rfl
@[simp] theorem State.finish_huff : (s.finish r).huff = s.huff := rfl
@[simp] theorem State.finish_arith : (s.finish r).arith = s.arith := rfl
@[simp] theorem State.finish_colorSpace : (s.finish r).colorSpace = s.colorSpace := rfl
@[simp] theorem State.finish_jfif : (s.finish r).jfif = s.jfif := rfl
@[simp] theorem State.finish_adobe : (s.finish r).adobe = s.adobe := rfl
@[simp] theorem State.finish_events : (s.finish r).events = s.events := rfl
@[simp] theorem State.finish_source : (s.finish r).source = s.source := rfl
@[simp] theorem State.finish_config : (s.finish r).config = s.config := rfl
@[simp] theorem State.finish_inputs : (s.finish r).inputs = s.inputs := rfl
@[simp] theorem State.finish_result : (s.finish r).result = r := rfl
@[simp] theorem State.finish_activity : (s.finish r).activity = .idle := rfl
@[simp] theorem State.finish_freeCount : (s.finish r).freeCount = s.freeCount := rfl

end Finish

section Suspend
variable (s : State)

@[simp] theorem State.suspend_pos : s.suspend.pos = s.pos := rfl
@[simp] theorem State.suspend_rstate : s.suspend.rstate = s.rstate := rfl
@[simp] theorem State.suspend_pendingMarker : s.suspend.pendingMarker = s.pendingMarker := rfl
@[simp] theorem State.suspend_latch : s.suspend.latch = s.latch := rfl
@[simp] theorem State.suspend_discardedByteCount : s.suspend.discardedByteCount = s.discardedByteCount := rfl
@[simp] theorem State.suspend_sawStartOfImage : s.suspend.sawStartOfImage = s.sawStartOfImage := rfl
@[simp] theorem State.suspend_sawFrameHeader : s.suspend.sawFrameHeader = s.sawFrameHeader := rfl
@[simp] theorem State.suspend_frame : s.suspend.frame = s.frame := rfl
@[simp] theorem State.suspend_scan : s.suspend.scan = s.scan := rfl
@[simp] theorem State.suspend_scanCount : s.suspend.scanCount = s.scanCount := rfl
@[simp] theorem State.suspend_nextRestartIndex : s.suspend.nextRestartIndex = s.nextRestartIndex := rfl
@[simp] theorem State.suspend_restartInterval : s.suspend.restartInterval = s.restartInterval := rfl
@[simp] theorem State.suspend_quant : s.suspend.quant = s.quant := rfl
@[simp] theorem State.suspend_huff : s.suspend.huff = s.huff := rfl
@[simp] theorem State.suspend_arith : s.suspend.arith = s.arith := rfl
@[simp] theorem State.suspend_colorSpace : s.suspend.colorSpace = s.colorSpace := rfl
@[simp] theorem State.suspend_jfif : s.suspend.jfif = s.jfif := rfl
@[simp] theorem State.suspend_adobe : s.suspend.adobe = s.adobe := rfl
@[simp] theorem State.suspend_events : s.suspend.events = s.events := rfl
@[simp] theorem State.suspend_source : s.suspend.source = s.source := rfl
@[simp] theorem State.suspend_config : s.suspend.config = s.config := rfl
@[simp] theorem State.suspend_inputs : s.suspend.inputs = s.inputs := rfl
@[simp] theorem State.suspend_result : s.suspend.result = .suspended := rfl
@[simp] theorem State.suspend_activity : s.suspend.activity = .idle := rfl
@[simp] theorem State.suspend_freeCount : s.suspend.freeCount = s.freeCount := rfl

end Suspend

section Emit
variable (s : State) (kind : EventKind) (a b : Count)

@[simp] theorem State.emit_pos : (s.emit kind a b).pos = s.pos := rfl
@[simp] theorem State.emit_rstate : (s.emit kind a b).rstate = s.rstate := rfl
@[simp] theorem State.emit_pendingMarker : (s.emit kind a b).pendingMarker = s.pendingMarker := rfl
@[simp] theorem State.emit_latch : (s.emit kind a b).latch = s.latch := rfl
@[simp] theorem State.emit_discardedByteCount : (s.emit kind a b).discardedByteCount = s.discardedByteCount := rfl
@[simp] theorem State.emit_sawStartOfImage : (s.emit kind a b).sawStartOfImage = s.sawStartOfImage := rfl
@[simp] theorem State.emit_sawFrameHeader : (s.emit kind a b).sawFrameHeader = s.sawFrameHeader := rfl
@[simp] theorem State.emit_frame : (s.emit kind a b).frame = s.frame := rfl
@[simp] theorem State.emit_scan : (s.emit kind a b).scan = s.scan := rfl
@[simp] theorem State.emit_scanCount : (s.emit kind a b).scanCount = s.scanCount := rfl
@[simp] theorem State.emit_nextRestartIndex : (s.emit kind a b).nextRestartIndex = s.nextRestartIndex := rfl
@[simp] theorem State.emit_restartInterval : (s.emit kind a b).restartInterval = s.restartInterval := rfl
@[simp] theorem State.emit_quant : (s.emit kind a b).quant = s.quant := rfl
@[simp] theorem State.emit_huff : (s.emit kind a b).huff = s.huff := rfl
@[simp] theorem State.emit_arith : (s.emit kind a b).arith = s.arith := rfl
@[simp] theorem State.emit_colorSpace : (s.emit kind a b).colorSpace = s.colorSpace := rfl
@[simp] theorem State.emit_jfif : (s.emit kind a b).jfif = s.jfif := rfl
@[simp] theorem State.emit_adobe : (s.emit kind a b).adobe = s.adobe := rfl
@[simp] theorem State.emit_events : (s.emit kind a b).events = s.events ++ [{ kind := kind, a := a, b := b }] := rfl
@[simp] theorem State.emit_source : (s.emit kind a b).source = s.source := rfl
@[simp] theorem State.emit_config : (s.emit kind a b).config = s.config := rfl
@[simp] theorem State.emit_inputs : (s.emit kind a b).inputs = s.inputs := rfl
@[simp] theorem State.emit_result : (s.emit kind a b).result = s.result := rfl
@[simp] theorem State.emit_activity : (s.emit kind a b).activity = s.activity := rfl
@[simp] theorem State.emit_freeCount : (s.emit kind a b).freeCount = s.freeCount := rfl

end Emit

section RaiseFatal
variable (s : State) (f : FatalError)

@[simp] theorem fatalError_cause (c : FatalCause) (i0 i1 : Half) : (fatalError c i0 i1).cause = c := rfl
/-- The registers of the latch take both values of R341 whole: nothing is cut. -/
@[simp] theorem fatalError_latched (c : FatalCause) (i0 i1 : Half) :
    (fatalError c i0 i1).latched = { fatal := true, code := c.code, info0 := i0, info1 := i1 } := by
  simp [fatalError, FatalError.latched]

@[simp] theorem State.raiseFatal_pos : (s.raiseFatal f).pos = s.pos := rfl
@[simp] theorem State.raiseFatal_rstate : (s.raiseFatal f).rstate = s.rstate := rfl
@[simp] theorem State.raiseFatal_pendingMarker : (s.raiseFatal f).pendingMarker = s.pendingMarker := rfl
@[simp] theorem State.raiseFatal_latch : (s.raiseFatal f).latch = f.latched := rfl
@[simp] theorem State.raiseFatal_discardedByteCount : (s.raiseFatal f).discardedByteCount =
    s.discardedByteCount := rfl
@[simp] theorem State.raiseFatal_sawStartOfImage : (s.raiseFatal f).sawStartOfImage = s.sawStartOfImage := rfl
@[simp] theorem State.raiseFatal_sawFrameHeader : (s.raiseFatal f).sawFrameHeader = s.sawFrameHeader := rfl
@[simp] theorem State.raiseFatal_frame : (s.raiseFatal f).frame = s.frame := rfl
@[simp] theorem State.raiseFatal_scan : (s.raiseFatal f).scan = s.scan := rfl
@[simp] theorem State.raiseFatal_scanCount : (s.raiseFatal f).scanCount = s.scanCount := rfl
@[simp] theorem State.raiseFatal_nextRestartIndex : (s.raiseFatal f).nextRestartIndex = s.nextRestartIndex := rfl
@[simp] theorem State.raiseFatal_restartInterval : (s.raiseFatal f).restartInterval = s.restartInterval := rfl
@[simp] theorem State.raiseFatal_quant : (s.raiseFatal f).quant = s.quant := rfl
@[simp] theorem State.raiseFatal_huff : (s.raiseFatal f).huff = s.huff := rfl
@[simp] theorem State.raiseFatal_arith : (s.raiseFatal f).arith = s.arith := rfl
@[simp] theorem State.raiseFatal_colorSpace : (s.raiseFatal f).colorSpace = s.colorSpace := rfl
@[simp] theorem State.raiseFatal_jfif : (s.raiseFatal f).jfif = s.jfif := rfl
@[simp] theorem State.raiseFatal_adobe : (s.raiseFatal f).adobe = s.adobe := rfl
@[simp] theorem State.raiseFatal_events : (s.raiseFatal f).events = s.events := rfl
@[simp] theorem State.raiseFatal_source : (s.raiseFatal f).source = s.source := rfl
@[simp] theorem State.raiseFatal_config : (s.raiseFatal f).config = s.config := rfl
@[simp] theorem State.raiseFatal_inputs : (s.raiseFatal f).inputs = s.inputs := rfl
@[simp] theorem State.raiseFatal_result : (s.raiseFatal f).result = .fatalError := rfl
@[simp] theorem State.raiseFatal_activity : (s.raiseFatal f).activity = .idle := rfl
@[simp] theorem State.raiseFatal_freeCount : (s.raiseFatal f).freeCount = s.freeCount := rfl

end RaiseFatal

section CountDiscarded
variable (s : State) (n : Nat)

@[simp] theorem State.countDiscarded_pos : (s.countDiscarded n).pos = s.pos := rfl
@[simp] theorem State.countDiscarded_rstate : (s.countDiscarded n).rstate = s.rstate := rfl
@[simp] theorem State.countDiscarded_pendingMarker : (s.countDiscarded n).pendingMarker = s.pendingMarker := rfl
@[simp] theorem State.countDiscarded_latch : (s.countDiscarded n).latch = s.latch := rfl
@[simp] theorem State.countDiscarded_discardedByteCount : (s.countDiscarded n).discardedByteCount =
    sat32Add s.discardedByteCount n := rfl
@[simp] theorem State.countDiscarded_sawStartOfImage : (s.countDiscarded n).sawStartOfImage = s.sawStartOfImage := rfl
@[simp] theorem State.countDiscarded_sawFrameHeader : (s.countDiscarded n).sawFrameHeader = s.sawFrameHeader := rfl
@[simp] theorem State.countDiscarded_frame : (s.countDiscarded n).frame = s.frame := rfl
@[simp] theorem State.countDiscarded_scan : (s.countDiscarded n).scan = s.scan := rfl
@[simp] theorem State.countDiscarded_scanCount : (s.countDiscarded n).scanCount = s.scanCount := rfl
@[simp] theorem State.countDiscarded_nextRestartIndex : (s.countDiscarded n).nextRestartIndex =
    s.nextRestartIndex := rfl
@[simp] theorem State.countDiscarded_restartInterval : (s.countDiscarded n).restartInterval = s.restartInterval := rfl
@[simp] theorem State.countDiscarded_quant : (s.countDiscarded n).quant = s.quant := rfl
@[simp] theorem State.countDiscarded_huff : (s.countDiscarded n).huff = s.huff := rfl
@[simp] theorem State.countDiscarded_arith : (s.countDiscarded n).arith = s.arith := rfl
@[simp] theorem State.countDiscarded_colorSpace : (s.countDiscarded n).colorSpace = s.colorSpace := rfl
@[simp] theorem State.countDiscarded_jfif : (s.countDiscarded n).jfif = s.jfif := rfl
@[simp] theorem State.countDiscarded_adobe : (s.countDiscarded n).adobe = s.adobe := rfl
@[simp] theorem State.countDiscarded_events : (s.countDiscarded n).events = s.events := rfl
@[simp] theorem State.countDiscarded_source : (s.countDiscarded n).source = s.source := rfl
@[simp] theorem State.countDiscarded_config : (s.countDiscarded n).config = s.config := rfl
@[simp] theorem State.countDiscarded_inputs : (s.countDiscarded n).inputs = s.inputs := rfl
@[simp] theorem State.countDiscarded_result : (s.countDiscarded n).result = s.result := rfl
@[simp] theorem State.countDiscarded_activity : (s.countDiscarded n).activity = s.activity := rfl
@[simp] theorem State.countDiscarded_freeCount : (s.countDiscarded n).freeCount = s.freeCount := rfl

end CountDiscarded

section MarkStartOfImage
variable (s : State)

@[simp] theorem State.markStartOfImage_pos : s.markStartOfImage.pos = s.pos := rfl
@[simp] theorem State.markStartOfImage_rstate : s.markStartOfImage.rstate = .haveStartOfImage := rfl
@[simp] theorem State.markStartOfImage_pendingMarker : s.markStartOfImage.pendingMarker = s.pendingMarker := rfl
@[simp] theorem State.markStartOfImage_latch : s.markStartOfImage.latch = s.latch := rfl
@[simp] theorem State.markStartOfImage_discardedByteCount : s.markStartOfImage.discardedByteCount =
    s.discardedByteCount := rfl
@[simp] theorem State.markStartOfImage_sawStartOfImage : s.markStartOfImage.sawStartOfImage = true := rfl
@[simp] theorem State.markStartOfImage_sawFrameHeader : s.markStartOfImage.sawFrameHeader = s.sawFrameHeader := rfl
@[simp] theorem State.markStartOfImage_frame : s.markStartOfImage.frame = s.frame := rfl
@[simp] theorem State.markStartOfImage_scan : s.markStartOfImage.scan = s.scan := rfl
@[simp] theorem State.markStartOfImage_scanCount : s.markStartOfImage.scanCount = s.scanCount := rfl
@[simp] theorem State.markStartOfImage_nextRestartIndex : s.markStartOfImage.nextRestartIndex =
    s.nextRestartIndex := rfl
@[simp] theorem State.markStartOfImage_restartInterval : s.markStartOfImage.restartInterval = s.restartInterval := rfl
@[simp] theorem State.markStartOfImage_quant : s.markStartOfImage.quant = s.quant := rfl
@[simp] theorem State.markStartOfImage_huff : s.markStartOfImage.huff = s.huff := rfl
@[simp] theorem State.markStartOfImage_arith : s.markStartOfImage.arith = s.arith := rfl
@[simp] theorem State.markStartOfImage_colorSpace : s.markStartOfImage.colorSpace = s.colorSpace := rfl
@[simp] theorem State.markStartOfImage_jfif : s.markStartOfImage.jfif = s.jfif := rfl
@[simp] theorem State.markStartOfImage_adobe : s.markStartOfImage.adobe = s.adobe := rfl
@[simp] theorem State.markStartOfImage_events : s.markStartOfImage.events = s.events := rfl
@[simp] theorem State.markStartOfImage_source : s.markStartOfImage.source = s.source := rfl
@[simp] theorem State.markStartOfImage_config : s.markStartOfImage.config = s.config := rfl
@[simp] theorem State.markStartOfImage_inputs : s.markStartOfImage.inputs = s.inputs := rfl
@[simp] theorem State.markStartOfImage_result : s.markStartOfImage.result = s.result := rfl
@[simp] theorem State.markStartOfImage_activity : s.markStartOfImage.activity = s.activity := rfl
@[simp] theorem State.markStartOfImage_freeCount : s.markStartOfImage.freeCount = s.freeCount := rfl

end MarkStartOfImage

section MarkFrameHeader
variable (s : State)

@[simp] theorem State.markFrameHeader_pos : s.markFrameHeader.pos = s.pos := rfl
@[simp] theorem State.markFrameHeader_rstate : s.markFrameHeader.rstate = .haveFrameHeader := rfl
@[simp] theorem State.markFrameHeader_pendingMarker : s.markFrameHeader.pendingMarker = s.pendingMarker := rfl
@[simp] theorem State.markFrameHeader_latch : s.markFrameHeader.latch = s.latch := rfl
@[simp] theorem State.markFrameHeader_discardedByteCount : s.markFrameHeader.discardedByteCount =
    s.discardedByteCount := rfl
@[simp] theorem State.markFrameHeader_sawStartOfImage : s.markFrameHeader.sawStartOfImage = s.sawStartOfImage := rfl
@[simp] theorem State.markFrameHeader_sawFrameHeader : s.markFrameHeader.sawFrameHeader = true := rfl
@[simp] theorem State.markFrameHeader_frame : s.markFrameHeader.frame = s.frame := rfl
@[simp] theorem State.markFrameHeader_scan : s.markFrameHeader.scan = s.scan := rfl
@[simp] theorem State.markFrameHeader_scanCount : s.markFrameHeader.scanCount = s.scanCount := rfl
@[simp] theorem State.markFrameHeader_nextRestartIndex : s.markFrameHeader.nextRestartIndex =
    s.nextRestartIndex := rfl
@[simp] theorem State.markFrameHeader_restartInterval : s.markFrameHeader.restartInterval = s.restartInterval := rfl
@[simp] theorem State.markFrameHeader_quant : s.markFrameHeader.quant = s.quant := rfl
@[simp] theorem State.markFrameHeader_huff : s.markFrameHeader.huff = s.huff := rfl
@[simp] theorem State.markFrameHeader_arith : s.markFrameHeader.arith = s.arith := rfl
@[simp] theorem State.markFrameHeader_colorSpace : s.markFrameHeader.colorSpace = s.colorSpace := rfl
@[simp] theorem State.markFrameHeader_jfif : s.markFrameHeader.jfif = s.jfif := rfl
@[simp] theorem State.markFrameHeader_adobe : s.markFrameHeader.adobe = s.adobe := rfl
@[simp] theorem State.markFrameHeader_events : s.markFrameHeader.events = s.events := rfl
@[simp] theorem State.markFrameHeader_source : s.markFrameHeader.source = s.source := rfl
@[simp] theorem State.markFrameHeader_config : s.markFrameHeader.config = s.config := rfl
@[simp] theorem State.markFrameHeader_inputs : s.markFrameHeader.inputs = s.inputs := rfl
@[simp] theorem State.markFrameHeader_result : s.markFrameHeader.result = s.result := rfl
@[simp] theorem State.markFrameHeader_activity : s.markFrameHeader.activity = s.activity := rfl
@[simp] theorem State.markFrameHeader_freeCount : s.markFrameHeader.freeCount = s.freeCount := rfl

end MarkFrameHeader

section MarkScan
variable (s : State)

@[simp] theorem State.markScan_pos : s.markScan.pos = s.pos := rfl
@[simp] theorem State.markScan_rstate : s.markScan.rstate = .inScan := rfl
@[simp] theorem State.markScan_pendingMarker : s.markScan.pendingMarker = s.pendingMarker := rfl
@[simp] theorem State.markScan_latch : s.markScan.latch = s.latch := rfl
@[simp] theorem State.markScan_discardedByteCount : s.markScan.discardedByteCount = s.discardedByteCount := rfl
@[simp] theorem State.markScan_sawStartOfImage : s.markScan.sawStartOfImage = s.sawStartOfImage := rfl
@[simp] theorem State.markScan_sawFrameHeader : s.markScan.sawFrameHeader = s.sawFrameHeader := rfl
@[simp] theorem State.markScan_frame : s.markScan.frame = s.frame := rfl
@[simp] theorem State.markScan_scan : s.markScan.scan = s.scan := rfl
@[simp] theorem State.markScan_scanCount : s.markScan.scanCount = sat32Add s.scanCount 1 := rfl
@[simp] theorem State.markScan_nextRestartIndex : s.markScan.nextRestartIndex = 0 := rfl
@[simp] theorem State.markScan_restartInterval : s.markScan.restartInterval = s.restartInterval := rfl
@[simp] theorem State.markScan_quant : s.markScan.quant = s.quant := rfl
@[simp] theorem State.markScan_huff : s.markScan.huff = s.huff := rfl
@[simp] theorem State.markScan_arith : s.markScan.arith = s.arith := rfl
@[simp] theorem State.markScan_colorSpace : s.markScan.colorSpace = s.colorSpace := rfl
@[simp] theorem State.markScan_jfif : s.markScan.jfif = s.jfif := rfl
@[simp] theorem State.markScan_adobe : s.markScan.adobe = s.adobe := rfl
@[simp] theorem State.markScan_events : s.markScan.events = s.events := rfl
@[simp] theorem State.markScan_source : s.markScan.source = s.source := rfl
@[simp] theorem State.markScan_config : s.markScan.config = s.config := rfl
@[simp] theorem State.markScan_inputs : s.markScan.inputs = s.inputs := rfl
@[simp] theorem State.markScan_result : s.markScan.result = s.result := rfl
@[simp] theorem State.markScan_activity : s.markScan.activity = s.activity := rfl
@[simp] theorem State.markScan_freeCount : s.markScan.freeCount = s.freeCount := rfl

end MarkScan

section StartImage
variable (s : State)

@[simp] theorem State.startImage_pos : s.startImage.pos = s.pos := rfl
@[simp] theorem State.startImage_rstate : s.startImage.rstate = .haveStartOfImage := rfl
@[simp] theorem State.startImage_pendingMarker : s.startImage.pendingMarker = s.pendingMarker := rfl
@[simp] theorem State.startImage_latch : s.startImage.latch = s.latch := rfl
@[simp] theorem State.startImage_discardedByteCount : s.startImage.discardedByteCount = s.discardedByteCount := rfl
@[simp] theorem State.startImage_sawStartOfImage : s.startImage.sawStartOfImage = true := rfl
@[simp] theorem State.startImage_sawFrameHeader : s.startImage.sawFrameHeader = s.sawFrameHeader := rfl
@[simp] theorem State.startImage_frame : s.startImage.frame = s.frame := rfl
@[simp] theorem State.startImage_scan : s.startImage.scan = s.scan := rfl
@[simp] theorem State.startImage_scanCount : s.startImage.scanCount = s.scanCount := rfl
@[simp] theorem State.startImage_nextRestartIndex : s.startImage.nextRestartIndex = s.nextRestartIndex := rfl
@[simp] theorem State.startImage_restartInterval : s.startImage.restartInterval = 0 := rfl
@[simp] theorem State.startImage_quant : s.startImage.quant = s.quant := rfl
@[simp] theorem State.startImage_huff : s.startImage.huff = s.huff := rfl
@[simp] theorem State.startImage_arith : s.startImage.arith = ArithRegs.defaults := rfl
@[simp] theorem State.startImage_colorSpace : s.startImage.colorSpace = 0 := rfl
@[simp] theorem State.startImage_jfif : s.startImage.jfif = JfifRegs.cleared := rfl
@[simp] theorem State.startImage_adobe : s.startImage.adobe = AdobeRegs.cleared := rfl
@[simp] theorem State.startImage_events : s.startImage.events = s.events := rfl
@[simp] theorem State.startImage_source : s.startImage.source = s.source := rfl
@[simp] theorem State.startImage_config : s.startImage.config = s.config := rfl
@[simp] theorem State.startImage_inputs : s.startImage.inputs = s.inputs := rfl
@[simp] theorem State.startImage_result : s.startImage.result = s.result := rfl
@[simp] theorem State.startImage_activity : s.startImage.activity = s.activity := rfl
@[simp] theorem State.startImage_freeCount : s.startImage.freeCount = s.freeCount := rfl

end StartImage

section WriteFrame
variable (s : State) (code : Byte) (o : FrameOperands)

@[simp] theorem State.writeFrame_pos : (s.writeFrame code o).pos = s.pos := rfl
@[simp] theorem State.writeFrame_rstate : (s.writeFrame code o).rstate = .haveFrameHeader := rfl
@[simp] theorem State.writeFrame_pendingMarker : (s.writeFrame code o).pendingMarker = s.pendingMarker := rfl
@[simp] theorem State.writeFrame_latch : (s.writeFrame code o).latch = s.latch := rfl
@[simp] theorem State.writeFrame_discardedByteCount : (s.writeFrame code o).discardedByteCount =
    s.discardedByteCount := rfl
@[simp] theorem State.writeFrame_sawStartOfImage : (s.writeFrame code o).sawStartOfImage = s.sawStartOfImage := rfl
@[simp] theorem State.writeFrame_sawFrameHeader : (s.writeFrame code o).sawFrameHeader = true := rfl
@[simp] theorem State.writeFrame_frame : (s.writeFrame code o).frame =
    { marker := code, precision := o.precision, height := o.height, width := o.width,
      componentCount := BitVec.ofNat 8 o.components.length,
      components := allocateComponents s.freeCount o.components } := rfl
@[simp] theorem State.writeFrame_scan : (s.writeFrame code o).scan = s.scan := rfl
@[simp] theorem State.writeFrame_scanCount : (s.writeFrame code o).scanCount = s.scanCount := rfl
@[simp] theorem State.writeFrame_nextRestartIndex : (s.writeFrame code o).nextRestartIndex = s.nextRestartIndex := rfl
@[simp] theorem State.writeFrame_restartInterval : (s.writeFrame code o).restartInterval = s.restartInterval := rfl
@[simp] theorem State.writeFrame_quant : (s.writeFrame code o).quant = s.quant := rfl
@[simp] theorem State.writeFrame_huff : (s.writeFrame code o).huff = s.huff := rfl
@[simp] theorem State.writeFrame_arith : (s.writeFrame code o).arith = s.arith := rfl
@[simp] theorem State.writeFrame_colorSpace : (s.writeFrame code o).colorSpace = s.colorSpace := rfl
@[simp] theorem State.writeFrame_jfif : (s.writeFrame code o).jfif = s.jfif := rfl
@[simp] theorem State.writeFrame_adobe : (s.writeFrame code o).adobe = s.adobe := rfl
@[simp] theorem State.writeFrame_events : (s.writeFrame code o).events = s.events := rfl
@[simp] theorem State.writeFrame_source : (s.writeFrame code o).source = s.source := rfl
@[simp] theorem State.writeFrame_config : (s.writeFrame code o).config = s.config := rfl
@[simp] theorem State.writeFrame_inputs : (s.writeFrame code o).inputs = s.inputs := rfl
@[simp] theorem State.writeFrame_result : (s.writeFrame code o).result = s.result := rfl
@[simp] theorem State.writeFrame_activity : (s.writeFrame code o).activity = s.activity := rfl
@[simp] theorem State.writeFrame_freeCount : (s.writeFrame code o).freeCount =
    s.freeCount + 2 * o.components.length := rfl

end WriteFrame

section WriteScan
variable (s : State) (o : ScanOperands) (js : List Nat)

@[simp] theorem State.writeScan_pos : (s.writeScan o js).pos = s.pos := rfl
@[simp] theorem State.writeScan_rstate : (s.writeScan o js).rstate = .inScan := rfl
@[simp] theorem State.writeScan_pendingMarker : (s.writeScan o js).pendingMarker = s.pendingMarker := rfl
@[simp] theorem State.writeScan_latch : (s.writeScan o js).latch = s.latch := rfl
@[simp] theorem State.writeScan_discardedByteCount : (s.writeScan o js).discardedByteCount =
    s.discardedByteCount := rfl
@[simp] theorem State.writeScan_sawStartOfImage : (s.writeScan o js).sawStartOfImage = s.sawStartOfImage := rfl
@[simp] theorem State.writeScan_sawFrameHeader : (s.writeScan o js).sawFrameHeader = s.sawFrameHeader := rfl
@[simp] theorem State.writeScan_frame : (s.writeScan o js).frame =
    { s.frame with components := assignTables s.frame.components (js.zip o.components) } := rfl
@[simp] theorem State.writeScan_scan : (s.writeScan o js).scan =
    { componentCount := BitVec.ofNat 3 o.components.length, componentIndex := js.map (BitVec.ofNat 8),
      spectralStart := o.spectralStart, spectralEnd := o.spectralEnd, approxHigh := o.approxHigh,
      approxLow := o.approxLow } := rfl
@[simp] theorem State.writeScan_scanCount : (s.writeScan o js).scanCount = sat32Add s.scanCount 1 := rfl
@[simp] theorem State.writeScan_nextRestartIndex : (s.writeScan o js).nextRestartIndex = 0 := rfl
@[simp] theorem State.writeScan_restartInterval : (s.writeScan o js).restartInterval = s.restartInterval := rfl
@[simp] theorem State.writeScan_quant : (s.writeScan o js).quant = s.quant := rfl
@[simp] theorem State.writeScan_huff : (s.writeScan o js).huff = s.huff := rfl
@[simp] theorem State.writeScan_arith : (s.writeScan o js).arith = s.arith := rfl
@[simp] theorem State.writeScan_colorSpace : (s.writeScan o js).colorSpace = s.colorSpace := rfl
@[simp] theorem State.writeScan_jfif : (s.writeScan o js).jfif = s.jfif := rfl
@[simp] theorem State.writeScan_adobe : (s.writeScan o js).adobe = s.adobe := rfl
@[simp] theorem State.writeScan_events : (s.writeScan o js).events = s.events := rfl
@[simp] theorem State.writeScan_source : (s.writeScan o js).source = s.source := rfl
@[simp] theorem State.writeScan_config : (s.writeScan o js).config = s.config := rfl
@[simp] theorem State.writeScan_inputs : (s.writeScan o js).inputs = s.inputs := rfl
@[simp] theorem State.writeScan_result : (s.writeScan o js).result = s.result := rfl
@[simp] theorem State.writeScan_activity : (s.writeScan o js).activity = s.activity := rfl
@[simp] theorem State.writeScan_freeCount : (s.writeScan o js).freeCount = s.freeCount := rfl

end WriteScan

section WriteJfif
variable (s : State) (j : JfifOperands)

@[simp] theorem State.writeJfif_pos : (s.writeJfif j).pos = s.pos := rfl
@[simp] theorem State.writeJfif_rstate : (s.writeJfif j).rstate = s.rstate := rfl
@[simp] theorem State.writeJfif_pendingMarker : (s.writeJfif j).pendingMarker = s.pendingMarker := rfl
@[simp] theorem State.writeJfif_latch : (s.writeJfif j).latch = s.latch := rfl
@[simp] theorem State.writeJfif_discardedByteCount : (s.writeJfif j).discardedByteCount = s.discardedByteCount := rfl
@[simp] theorem State.writeJfif_sawStartOfImage : (s.writeJfif j).sawStartOfImage = s.sawStartOfImage := rfl
@[simp] theorem State.writeJfif_sawFrameHeader : (s.writeJfif j).sawFrameHeader = s.sawFrameHeader := rfl
@[simp] theorem State.writeJfif_frame : (s.writeJfif j).frame = s.frame := rfl
@[simp] theorem State.writeJfif_scan : (s.writeJfif j).scan = s.scan := rfl
@[simp] theorem State.writeJfif_scanCount : (s.writeJfif j).scanCount = s.scanCount := rfl
@[simp] theorem State.writeJfif_nextRestartIndex : (s.writeJfif j).nextRestartIndex = s.nextRestartIndex := rfl
@[simp] theorem State.writeJfif_restartInterval : (s.writeJfif j).restartInterval = s.restartInterval := rfl
@[simp] theorem State.writeJfif_quant : (s.writeJfif j).quant = s.quant := rfl
@[simp] theorem State.writeJfif_huff : (s.writeJfif j).huff = s.huff := rfl
@[simp] theorem State.writeJfif_arith : (s.writeJfif j).arith = s.arith := rfl
@[simp] theorem State.writeJfif_colorSpace : (s.writeJfif j).colorSpace = s.colorSpace := rfl
@[simp] theorem State.writeJfif_jfif : (s.writeJfif j).jfif =
    { saw := true, major := j.major, minor := j.minor, densityUnit := j.densityUnit, xDensity := j.xDensity,
      yDensity := j.yDensity } := rfl
@[simp] theorem State.writeJfif_adobe : (s.writeJfif j).adobe = s.adobe := rfl
@[simp] theorem State.writeJfif_events : (s.writeJfif j).events = s.events := rfl
@[simp] theorem State.writeJfif_source : (s.writeJfif j).source = s.source := rfl
@[simp] theorem State.writeJfif_config : (s.writeJfif j).config = s.config := rfl
@[simp] theorem State.writeJfif_inputs : (s.writeJfif j).inputs = s.inputs := rfl
@[simp] theorem State.writeJfif_result : (s.writeJfif j).result = s.result := rfl
@[simp] theorem State.writeJfif_activity : (s.writeJfif j).activity = s.activity := rfl
@[simp] theorem State.writeJfif_freeCount : (s.writeJfif j).freeCount = s.freeCount := rfl

end WriteJfif

section WriteAdobe
variable (s : State) (a : AdobeOperands)

@[simp] theorem State.writeAdobe_pos : (s.writeAdobe a).pos = s.pos := rfl
@[simp] theorem State.writeAdobe_rstate : (s.writeAdobe a).rstate = s.rstate := rfl
@[simp] theorem State.writeAdobe_pendingMarker : (s.writeAdobe a).pendingMarker = s.pendingMarker := rfl
@[simp] theorem State.writeAdobe_latch : (s.writeAdobe a).latch = s.latch := rfl
@[simp] theorem State.writeAdobe_discardedByteCount : (s.writeAdobe a).discardedByteCount =
    s.discardedByteCount := rfl
@[simp] theorem State.writeAdobe_sawStartOfImage : (s.writeAdobe a).sawStartOfImage = s.sawStartOfImage := rfl
@[simp] theorem State.writeAdobe_sawFrameHeader : (s.writeAdobe a).sawFrameHeader = s.sawFrameHeader := rfl
@[simp] theorem State.writeAdobe_frame : (s.writeAdobe a).frame = s.frame := rfl
@[simp] theorem State.writeAdobe_scan : (s.writeAdobe a).scan = s.scan := rfl
@[simp] theorem State.writeAdobe_scanCount : (s.writeAdobe a).scanCount = s.scanCount := rfl
@[simp] theorem State.writeAdobe_nextRestartIndex : (s.writeAdobe a).nextRestartIndex = s.nextRestartIndex := rfl
@[simp] theorem State.writeAdobe_restartInterval : (s.writeAdobe a).restartInterval = s.restartInterval := rfl
@[simp] theorem State.writeAdobe_quant : (s.writeAdobe a).quant = s.quant := rfl
@[simp] theorem State.writeAdobe_huff : (s.writeAdobe a).huff = s.huff := rfl
@[simp] theorem State.writeAdobe_arith : (s.writeAdobe a).arith = s.arith := rfl
@[simp] theorem State.writeAdobe_colorSpace : (s.writeAdobe a).colorSpace = s.colorSpace := rfl
@[simp] theorem State.writeAdobe_jfif : (s.writeAdobe a).jfif = s.jfif := rfl
@[simp] theorem State.writeAdobe_adobe : (s.writeAdobe a).adobe =
    { saw := true, version := a.version, flags0 := a.flags0, flags1 := a.flags1, transform := a.transform } := rfl
@[simp] theorem State.writeAdobe_events : (s.writeAdobe a).events = s.events := rfl
@[simp] theorem State.writeAdobe_source : (s.writeAdobe a).source = s.source := rfl
@[simp] theorem State.writeAdobe_config : (s.writeAdobe a).config = s.config := rfl
@[simp] theorem State.writeAdobe_inputs : (s.writeAdobe a).inputs = s.inputs := rfl
@[simp] theorem State.writeAdobe_result : (s.writeAdobe a).result = s.result := rfl
@[simp] theorem State.writeAdobe_activity : (s.writeAdobe a).activity = s.activity := rfl
@[simp] theorem State.writeAdobe_freeCount : (s.writeAdobe a).freeCount = s.freeCount := rfl

end WriteAdobe

section RestartOk
variable (s : State)

@[simp] theorem State.restartOk_pos : s.restartOk.pos = s.pos := rfl
@[simp] theorem State.restartOk_rstate : s.restartOk.rstate = s.rstate := rfl
@[simp] theorem State.restartOk_pendingMarker : s.restartOk.pendingMarker = s.pendingMarker := rfl
@[simp] theorem State.restartOk_latch : s.restartOk.latch = s.latch := rfl
@[simp] theorem State.restartOk_discardedByteCount : s.restartOk.discardedByteCount = s.discardedByteCount := rfl
@[simp] theorem State.restartOk_sawStartOfImage : s.restartOk.sawStartOfImage = s.sawStartOfImage := rfl
@[simp] theorem State.restartOk_sawFrameHeader : s.restartOk.sawFrameHeader = s.sawFrameHeader := rfl
@[simp] theorem State.restartOk_frame : s.restartOk.frame = s.frame := rfl
@[simp] theorem State.restartOk_scan : s.restartOk.scan = s.scan := rfl
@[simp] theorem State.restartOk_scanCount : s.restartOk.scanCount = s.scanCount := rfl
@[simp] theorem State.restartOk_nextRestartIndex : s.restartOk.nextRestartIndex = s.nextRestartIndex + 1 := rfl
@[simp] theorem State.restartOk_restartInterval : s.restartOk.restartInterval = s.restartInterval := rfl
@[simp] theorem State.restartOk_quant : s.restartOk.quant = s.quant := rfl
@[simp] theorem State.restartOk_huff : s.restartOk.huff = s.huff := rfl
@[simp] theorem State.restartOk_arith : s.restartOk.arith = s.arith := rfl
@[simp] theorem State.restartOk_colorSpace : s.restartOk.colorSpace = s.colorSpace := rfl
@[simp] theorem State.restartOk_jfif : s.restartOk.jfif = s.jfif := rfl
@[simp] theorem State.restartOk_adobe : s.restartOk.adobe = s.adobe := rfl
@[simp] theorem State.restartOk_events : s.restartOk.events = s.events := rfl
@[simp] theorem State.restartOk_source : s.restartOk.source = s.source := rfl
@[simp] theorem State.restartOk_config : s.restartOk.config = s.config := rfl
@[simp] theorem State.restartOk_inputs : s.restartOk.inputs = s.inputs := rfl
@[simp] theorem State.restartOk_result : s.restartOk.result = .restartOk := rfl
@[simp] theorem State.restartOk_activity : s.restartOk.activity = .idle := rfl
@[simp] theorem State.restartOk_freeCount : s.restartOk.freeCount = s.freeCount := rfl

end RestartOk

section Fill
variable (s : State) (bs : List Byte)

@[simp] theorem State.fill_pos : (s.fill bs).pos = s.pos := rfl
@[simp] theorem State.fill_rstate : (s.fill bs).rstate = s.rstate := rfl
@[simp] theorem State.fill_pendingMarker : (s.fill bs).pendingMarker = s.pendingMarker := rfl
@[simp] theorem State.fill_latch : (s.fill bs).latch = s.latch := rfl
@[simp] theorem State.fill_discardedByteCount : (s.fill bs).discardedByteCount = s.discardedByteCount := rfl
@[simp] theorem State.fill_sawStartOfImage : (s.fill bs).sawStartOfImage = s.sawStartOfImage := rfl
@[simp] theorem State.fill_sawFrameHeader : (s.fill bs).sawFrameHeader = s.sawFrameHeader := rfl
@[simp] theorem State.fill_frame : (s.fill bs).frame = s.frame := rfl
@[simp] theorem State.fill_scan : (s.fill bs).scan = s.scan := rfl
@[simp] theorem State.fill_scanCount : (s.fill bs).scanCount = s.scanCount := rfl
@[simp] theorem State.fill_nextRestartIndex : (s.fill bs).nextRestartIndex = s.nextRestartIndex := rfl
@[simp] theorem State.fill_restartInterval : (s.fill bs).restartInterval = s.restartInterval := rfl
@[simp] theorem State.fill_quant : (s.fill bs).quant = s.quant := rfl
@[simp] theorem State.fill_huff : (s.fill bs).huff = s.huff := rfl
@[simp] theorem State.fill_arith : (s.fill bs).arith = s.arith := rfl
@[simp] theorem State.fill_colorSpace : (s.fill bs).colorSpace = s.colorSpace := rfl
@[simp] theorem State.fill_jfif : (s.fill bs).jfif = s.jfif := rfl
@[simp] theorem State.fill_adobe : (s.fill bs).adobe = s.adobe := rfl
@[simp] theorem State.fill_events : (s.fill bs).events = s.events := rfl
@[simp] theorem State.fill_source : (s.fill bs).source = s.source.fill bs := rfl
@[simp] theorem State.fill_config : (s.fill bs).config = s.config := rfl
@[simp] theorem State.fill_inputs : (s.fill bs).inputs = s.inputs := rfl
@[simp] theorem State.fill_result : (s.fill bs).result = s.result := rfl
@[simp] theorem State.fill_activity : (s.fill bs).activity = s.activity := rfl
@[simp] theorem State.fill_freeCount : (s.fill bs).freeCount = s.freeCount := rfl

end Fill

section EndOfData
variable (s : State)

@[simp] theorem State.endOfData_pos : s.endOfData.pos = s.pos := rfl
@[simp] theorem State.endOfData_rstate : s.endOfData.rstate = s.rstate := rfl
@[simp] theorem State.endOfData_pendingMarker : s.endOfData.pendingMarker = s.pendingMarker := rfl
@[simp] theorem State.endOfData_latch : s.endOfData.latch = s.latch := rfl
@[simp] theorem State.endOfData_discardedByteCount : s.endOfData.discardedByteCount = s.discardedByteCount := rfl
@[simp] theorem State.endOfData_sawStartOfImage : s.endOfData.sawStartOfImage = s.sawStartOfImage := rfl
@[simp] theorem State.endOfData_sawFrameHeader : s.endOfData.sawFrameHeader = s.sawFrameHeader := rfl
@[simp] theorem State.endOfData_frame : s.endOfData.frame = s.frame := rfl
@[simp] theorem State.endOfData_scan : s.endOfData.scan = s.scan := rfl
@[simp] theorem State.endOfData_scanCount : s.endOfData.scanCount = s.scanCount := rfl
@[simp] theorem State.endOfData_nextRestartIndex : s.endOfData.nextRestartIndex = s.nextRestartIndex := rfl
@[simp] theorem State.endOfData_restartInterval : s.endOfData.restartInterval = s.restartInterval := rfl
@[simp] theorem State.endOfData_quant : s.endOfData.quant = s.quant := rfl
@[simp] theorem State.endOfData_huff : s.endOfData.huff = s.huff := rfl
@[simp] theorem State.endOfData_arith : s.endOfData.arith = s.arith := rfl
@[simp] theorem State.endOfData_colorSpace : s.endOfData.colorSpace = s.colorSpace := rfl
@[simp] theorem State.endOfData_jfif : s.endOfData.jfif = s.jfif := rfl
@[simp] theorem State.endOfData_adobe : s.endOfData.adobe = s.adobe := rfl
@[simp] theorem State.endOfData_events : s.endOfData.events = s.events := rfl
@[simp] theorem State.endOfData_source : s.endOfData.source = { s.source with eod := true } := rfl
@[simp] theorem State.endOfData_config : s.endOfData.config = s.config := rfl
@[simp] theorem State.endOfData_inputs : s.endOfData.inputs = s.inputs := rfl
@[simp] theorem State.endOfData_result : s.endOfData.result = s.result := rfl
@[simp] theorem State.endOfData_activity : s.endOfData.activity = s.activity := rfl
@[simp] theorem State.endOfData_freeCount : s.endOfData.freeCount = s.freeCount := rfl

end EndOfData

section ResetStream
variable (s : State)

@[simp] theorem State.resetStream_pos : s.resetStream.pos = State.reset.pos := rfl
@[simp] theorem State.resetStream_rstate : s.resetStream.rstate = State.reset.rstate := rfl
@[simp] theorem State.resetStream_pendingMarker : s.resetStream.pendingMarker = State.reset.pendingMarker := rfl
@[simp] theorem State.resetStream_latch : s.resetStream.latch = State.reset.latch := rfl
@[simp] theorem State.resetStream_discardedByteCount : s.resetStream.discardedByteCount =
    State.reset.discardedByteCount := rfl
@[simp] theorem State.resetStream_sawStartOfImage : s.resetStream.sawStartOfImage = State.reset.sawStartOfImage := rfl
@[simp] theorem State.resetStream_sawFrameHeader : s.resetStream.sawFrameHeader = State.reset.sawFrameHeader := rfl
@[simp] theorem State.resetStream_frame : s.resetStream.frame = State.reset.frame := rfl
@[simp] theorem State.resetStream_scan : s.resetStream.scan = State.reset.scan := rfl
@[simp] theorem State.resetStream_scanCount : s.resetStream.scanCount = State.reset.scanCount := rfl
@[simp] theorem State.resetStream_nextRestartIndex : s.resetStream.nextRestartIndex =
    State.reset.nextRestartIndex := rfl
@[simp] theorem State.resetStream_restartInterval : s.resetStream.restartInterval = State.reset.restartInterval := rfl
@[simp] theorem State.resetStream_quant : s.resetStream.quant = s.quant := rfl
@[simp] theorem State.resetStream_huff : s.resetStream.huff = s.huff := rfl
@[simp] theorem State.resetStream_arith : s.resetStream.arith = State.reset.arith := rfl
@[simp] theorem State.resetStream_colorSpace : s.resetStream.colorSpace = State.reset.colorSpace := rfl
@[simp] theorem State.resetStream_jfif : s.resetStream.jfif = State.reset.jfif := rfl
@[simp] theorem State.resetStream_adobe : s.resetStream.adobe = State.reset.adobe := rfl
@[simp] theorem State.resetStream_events : s.resetStream.events = s.events := rfl
@[simp] theorem State.resetStream_source : s.resetStream.source = State.reset.source := rfl
@[simp] theorem State.resetStream_config : s.resetStream.config = s.config := rfl
@[simp] theorem State.resetStream_inputs : s.resetStream.inputs = s.inputs := rfl
@[simp] theorem State.resetStream_result : s.resetStream.result = State.reset.result := rfl
@[simp] theorem State.resetStream_activity : s.resetStream.activity = State.reset.activity := rfl
@[simp] theorem State.resetStream_freeCount : s.resetStream.freeCount = s.freeCount := rfl

end ResetStream

section WarnMajor
variable (s : State) (j : JfifOperands)

@[simp] theorem State.warnMajor_pos : (s.warnMajor j).pos = s.pos := by unfold State.warnMajor; split <;> rfl
@[simp] theorem State.warnMajor_rstate : (s.warnMajor j).rstate = s.rstate := by unfold State.warnMajor; split <;> rfl
@[simp] theorem State.warnMajor_pendingMarker : (s.warnMajor j).pendingMarker =
    s.pendingMarker := by unfold State.warnMajor; split <;> rfl
@[simp] theorem State.warnMajor_latch : (s.warnMajor j).latch = s.latch := by unfold State.warnMajor; split <;> rfl
@[simp] theorem State.warnMajor_discardedByteCount : (s.warnMajor j).discardedByteCount =
    s.discardedByteCount := by unfold State.warnMajor; split <;> rfl
@[simp] theorem State.warnMajor_sawStartOfImage : (s.warnMajor j).sawStartOfImage =
    s.sawStartOfImage := by unfold State.warnMajor; split <;> rfl
@[simp] theorem State.warnMajor_sawFrameHeader : (s.warnMajor j).sawFrameHeader =
    s.sawFrameHeader := by unfold State.warnMajor; split <;> rfl
@[simp] theorem State.warnMajor_frame : (s.warnMajor j).frame = s.frame := by unfold State.warnMajor; split <;> rfl
@[simp] theorem State.warnMajor_scan : (s.warnMajor j).scan = s.scan := by unfold State.warnMajor; split <;> rfl
@[simp] theorem State.warnMajor_scanCount : (s.warnMajor j).scanCount =
    s.scanCount := by unfold State.warnMajor; split <;> rfl
@[simp] theorem State.warnMajor_nextRestartIndex : (s.warnMajor j).nextRestartIndex =
    s.nextRestartIndex := by unfold State.warnMajor; split <;> rfl
@[simp] theorem State.warnMajor_restartInterval : (s.warnMajor j).restartInterval =
    s.restartInterval := by unfold State.warnMajor; split <;> rfl
@[simp] theorem State.warnMajor_quant : (s.warnMajor j).quant = s.quant := by unfold State.warnMajor; split <;> rfl
@[simp] theorem State.warnMajor_huff : (s.warnMajor j).huff = s.huff := by unfold State.warnMajor; split <;> rfl
@[simp] theorem State.warnMajor_arith : (s.warnMajor j).arith = s.arith := by unfold State.warnMajor; split <;> rfl
@[simp] theorem State.warnMajor_colorSpace : (s.warnMajor j).colorSpace =
    s.colorSpace := by unfold State.warnMajor; split <;> rfl
@[simp] theorem State.warnMajor_jfif : (s.warnMajor j).jfif = s.jfif := by unfold State.warnMajor; split <;> rfl
@[simp] theorem State.warnMajor_adobe : (s.warnMajor j).adobe = s.adobe := by unfold State.warnMajor; split <;> rfl
@[simp] theorem State.warnMajor_source : (s.warnMajor j).source = s.source := by unfold State.warnMajor; split <;> rfl
@[simp] theorem State.warnMajor_config : (s.warnMajor j).config = s.config := by unfold State.warnMajor; split <;> rfl
@[simp] theorem State.warnMajor_inputs : (s.warnMajor j).inputs = s.inputs := by unfold State.warnMajor; split <;> rfl
@[simp] theorem State.warnMajor_result : (s.warnMajor j).result = s.result := by unfold State.warnMajor; split <;> rfl
@[simp] theorem State.warnMajor_activity : (s.warnMajor j).activity =
    s.activity := by unfold State.warnMajor; split <;> rfl
@[simp] theorem State.warnMajor_freeCount : (s.warnMajor j).freeCount =
    s.freeCount := by unfold State.warnMajor; split <;> rfl

end WarnMajor

section WarnThumbnail
variable (s : State) (j : JfifOperands) (rem : Nat)

@[simp] theorem State.warnThumbnail_pos : (s.warnThumbnail j rem).pos =
    s.pos := by unfold State.warnThumbnail; split <;> rfl
@[simp] theorem State.warnThumbnail_rstate : (s.warnThumbnail j rem).rstate =
    s.rstate := by unfold State.warnThumbnail; split <;> rfl
@[simp] theorem State.warnThumbnail_pendingMarker : (s.warnThumbnail j rem).pendingMarker =
    s.pendingMarker := by unfold State.warnThumbnail; split <;> rfl
@[simp] theorem State.warnThumbnail_latch : (s.warnThumbnail j rem).latch =
    s.latch := by unfold State.warnThumbnail; split <;> rfl
@[simp] theorem State.warnThumbnail_discardedByteCount : (s.warnThumbnail j rem).discardedByteCount =
    s.discardedByteCount := by unfold State.warnThumbnail; split <;> rfl
@[simp] theorem State.warnThumbnail_sawStartOfImage : (s.warnThumbnail j rem).sawStartOfImage =
    s.sawStartOfImage := by unfold State.warnThumbnail; split <;> rfl
@[simp] theorem State.warnThumbnail_sawFrameHeader : (s.warnThumbnail j rem).sawFrameHeader =
    s.sawFrameHeader := by unfold State.warnThumbnail; split <;> rfl
@[simp] theorem State.warnThumbnail_frame : (s.warnThumbnail j rem).frame =
    s.frame := by unfold State.warnThumbnail; split <;> rfl
@[simp] theorem State.warnThumbnail_scan : (s.warnThumbnail j rem).scan =
    s.scan := by unfold State.warnThumbnail; split <;> rfl
@[simp] theorem State.warnThumbnail_scanCount : (s.warnThumbnail j rem).scanCount =
    s.scanCount := by unfold State.warnThumbnail; split <;> rfl
@[simp] theorem State.warnThumbnail_nextRestartIndex : (s.warnThumbnail j rem).nextRestartIndex =
    s.nextRestartIndex := by unfold State.warnThumbnail; split <;> rfl
@[simp] theorem State.warnThumbnail_restartInterval : (s.warnThumbnail j rem).restartInterval =
    s.restartInterval := by unfold State.warnThumbnail; split <;> rfl
@[simp] theorem State.warnThumbnail_quant : (s.warnThumbnail j rem).quant =
    s.quant := by unfold State.warnThumbnail; split <;> rfl
@[simp] theorem State.warnThumbnail_huff : (s.warnThumbnail j rem).huff =
    s.huff := by unfold State.warnThumbnail; split <;> rfl
@[simp] theorem State.warnThumbnail_arith : (s.warnThumbnail j rem).arith =
    s.arith := by unfold State.warnThumbnail; split <;> rfl
@[simp] theorem State.warnThumbnail_colorSpace : (s.warnThumbnail j rem).colorSpace =
    s.colorSpace := by unfold State.warnThumbnail; split <;> rfl
@[simp] theorem State.warnThumbnail_jfif : (s.warnThumbnail j rem).jfif =
    s.jfif := by unfold State.warnThumbnail; split <;> rfl
@[simp] theorem State.warnThumbnail_adobe : (s.warnThumbnail j rem).adobe =
    s.adobe := by unfold State.warnThumbnail; split <;> rfl
@[simp] theorem State.warnThumbnail_source : (s.warnThumbnail j rem).source =
    s.source := by unfold State.warnThumbnail; split <;> rfl
@[simp] theorem State.warnThumbnail_config : (s.warnThumbnail j rem).config =
    s.config := by unfold State.warnThumbnail; split <;> rfl
@[simp] theorem State.warnThumbnail_inputs : (s.warnThumbnail j rem).inputs =
    s.inputs := by unfold State.warnThumbnail; split <;> rfl
@[simp] theorem State.warnThumbnail_result : (s.warnThumbnail j rem).result =
    s.result := by unfold State.warnThumbnail; split <;> rfl
@[simp] theorem State.warnThumbnail_activity : (s.warnThumbnail j rem).activity =
    s.activity := by unfold State.warnThumbnail; split <;> rfl
@[simp] theorem State.warnThumbnail_freeCount : (s.warnThumbnail j rem).freeCount =
    s.freeCount := by unfold State.warnThumbnail; split <;> rfl

end WarnThumbnail

section WarnExtraneous
variable (s : State) (code : Byte)

@[simp] theorem State.warnExtraneous_pos : (s.warnExtraneous code).pos =
    s.pos := by unfold State.warnExtraneous; split <;> rfl
@[simp] theorem State.warnExtraneous_rstate : (s.warnExtraneous code).rstate =
    s.rstate := by unfold State.warnExtraneous; split <;> rfl
@[simp] theorem State.warnExtraneous_pendingMarker : (s.warnExtraneous code).pendingMarker =
    s.pendingMarker := by unfold State.warnExtraneous; split <;> rfl
@[simp] theorem State.warnExtraneous_latch : (s.warnExtraneous code).latch =
    s.latch := by unfold State.warnExtraneous; split <;> rfl
@[simp] theorem State.warnExtraneous_discardedByteCount : (s.warnExtraneous code).discardedByteCount =
    s.discardedByteCount := by unfold State.warnExtraneous; split <;> rfl
@[simp] theorem State.warnExtraneous_sawStartOfImage : (s.warnExtraneous code).sawStartOfImage =
    s.sawStartOfImage := by unfold State.warnExtraneous; split <;> rfl
@[simp] theorem State.warnExtraneous_sawFrameHeader : (s.warnExtraneous code).sawFrameHeader =
    s.sawFrameHeader := by unfold State.warnExtraneous; split <;> rfl
@[simp] theorem State.warnExtraneous_frame : (s.warnExtraneous code).frame =
    s.frame := by unfold State.warnExtraneous; split <;> rfl
@[simp] theorem State.warnExtraneous_scan : (s.warnExtraneous code).scan =
    s.scan := by unfold State.warnExtraneous; split <;> rfl
@[simp] theorem State.warnExtraneous_scanCount : (s.warnExtraneous code).scanCount =
    s.scanCount := by unfold State.warnExtraneous; split <;> rfl
@[simp] theorem State.warnExtraneous_nextRestartIndex : (s.warnExtraneous code).nextRestartIndex =
    s.nextRestartIndex := by unfold State.warnExtraneous; split <;> rfl
@[simp] theorem State.warnExtraneous_restartInterval : (s.warnExtraneous code).restartInterval =
    s.restartInterval := by unfold State.warnExtraneous; split <;> rfl
@[simp] theorem State.warnExtraneous_quant : (s.warnExtraneous code).quant =
    s.quant := by unfold State.warnExtraneous; split <;> rfl
@[simp] theorem State.warnExtraneous_huff : (s.warnExtraneous code).huff =
    s.huff := by unfold State.warnExtraneous; split <;> rfl
@[simp] theorem State.warnExtraneous_arith : (s.warnExtraneous code).arith =
    s.arith := by unfold State.warnExtraneous; split <;> rfl
@[simp] theorem State.warnExtraneous_colorSpace : (s.warnExtraneous code).colorSpace =
    s.colorSpace := by unfold State.warnExtraneous; split <;> rfl
@[simp] theorem State.warnExtraneous_jfif : (s.warnExtraneous code).jfif =
    s.jfif := by unfold State.warnExtraneous; split <;> rfl
@[simp] theorem State.warnExtraneous_adobe : (s.warnExtraneous code).adobe =
    s.adobe := by unfold State.warnExtraneous; split <;> rfl
@[simp] theorem State.warnExtraneous_source : (s.warnExtraneous code).source =
    s.source := by unfold State.warnExtraneous; split <;> rfl
@[simp] theorem State.warnExtraneous_config : (s.warnExtraneous code).config =
    s.config := by unfold State.warnExtraneous; split <;> rfl
@[simp] theorem State.warnExtraneous_inputs : (s.warnExtraneous code).inputs =
    s.inputs := by unfold State.warnExtraneous; split <;> rfl
@[simp] theorem State.warnExtraneous_result : (s.warnExtraneous code).result =
    s.result := by unfold State.warnExtraneous; split <;> rfl
@[simp] theorem State.warnExtraneous_activity : (s.warnExtraneous code).activity =
    s.activity := by unfold State.warnExtraneous; split <;> rfl
@[simp] theorem State.warnExtraneous_freeCount : (s.warnExtraneous code).freeCount =
    s.freeCount := by unfold State.warnExtraneous; split <;> rfl

end WarnExtraneous

end Sys2Proof.Machine
end

