-- ==== Sys2Proof/Laws/Ops.lean ====
section
/-! SUPPORT. One lemma per shared operation that says once everything the operation can do: moving `pos`, ending a command,
waiting for a segment, the scanner's commits (`00_scope.md` R13, R15; `40_marker_scanner.md` R142;
`41_frame_and_scan_headers.md` R160). -/

namespace Sys2Proof.Machine

/-! ### Moving `pos` -/

/-- A move succeeds exactly when there is room. -/
theorem State.advance_eq (s : State) (n : Nat) :
    s.advance n =
      if s.pos.toNat + n < 2 ^ 64 then some { s with pos := BitVec.ofNat 64 (s.pos.toNat + n) } else none := rfl

theorem State.advance_some {s t : State} {n : Nat} :
    s.advance n = some t ↔
      s.pos.toNat + n < 2 ^ 64 ∧ t = { s with pos := BitVec.ofNat 64 (s.pos.toNat + n) } := by
  rw [State.advance_eq]
  by_cases h : s.pos.toNat + n < 2 ^ 64
  · rw [if_pos h, Option.some.injEq, eq_comm, and_iff_right h]
  · rw [if_neg h]; exact iff_of_false (fun h' => nomatch h') (fun h' => h h'.1)

theorem State.advance_none {s : State} {n : Nat} : s.advance n = none ↔ 2 ^ 64 ≤ s.pos.toNat + n := by
  rw [State.advance_eq]; split <;> simp_all

/-- The position after a move with room. -/
theorem toNat_ofNat_pos {p : Nat} (h : p < 2 ^ 64) : (BitVec.ofNat 64 p).toNat = p := by
  simp only [BitVec.toNat_ofNat]; omega

theorem orOverflow_next {m : Option State} {t : State} : orOverflow m = .next t ↔ m = some t := by
  cases m <;> simp [orOverflow]

theorem orOverflow_ne_fault {m : Option State} {f : Fault} : orOverflow m ≠ .fault f := by
  cases m <;> simp [orOverflow]

theorem orOverflow_refused {m : Option State} {r : Refusal} (h : orOverflow m = .refused r) :
    r = .positionOverflow := by
  cases m
  · exact (Host.Outcome.refused.inj h).symm
  · cases h

/-! ### Ending a decoder -/

@[simp] theorem Decoded.commit_some (s : State) (g : Signal) : Decoded.commit (some s) g = .done s g := rfl

@[simp] theorem Decoded.commit_none (g : Signal) : Decoded.commit none g = .overflow := rfl

@[simp] theorem Decoded.ofRead_ok {α : Type} (a : α) (k : α → Decoded) : Decoded.ofRead (.ok a) k = k a := rfl

@[simp] theorem Decoded.ofRead_error {α : Type} (f : FatalError) (k : α → Decoded) :
    Decoded.ofRead (.error f) k = .fatal f := rfl

/-- A commit is done exactly with the moved state. -/
theorem Decoded.commit_advance (s : State) (n : Nat) (g : Signal) :
    Decoded.commit (s.advance n) g =
      if s.pos.toNat + n < 2 ^ 64 then .done { s with pos := BitVec.ofNat 64 (s.pos.toNat + n) } g else .overflow := by
  rw [State.advance_eq]; split <;> rfl

theorem Decoded.commit_advance_of_room {s : State} {n : Nat} (g : Signal) (h : s.pos.toNat + n < 2 ^ 64) :
    Decoded.commit (s.advance n) g = .done { s with pos := BitVec.ofNat 64 (s.pos.toNat + n) } g := by
  rw [Decoded.commit_advance, if_pos h]

theorem Decoded.commit_advance_of_not {s : State} {n : Nat} (g : Signal) (h : ¬s.pos.toNat + n < 2 ^ 64) :
    Decoded.commit (s.advance n) g = .overflow := by
  rw [Decoded.commit_advance, if_neg h]

/-- What a decoder leaves, once the dispatcher has ended it (R281). -/
def Decoded.after (u : State) : Signal → State
  | .proceed => { u with pendingMarker := 0 }
  | .scanStart => { u with pendingMarker := 0, result := .reachedScanStart, activity := .idle }
  | .endOfStream => { u with pendingMarker := 0, result := .reachedEndOfStream, activity := .idle }

@[simp] theorem State.complete_done (s u : State) (g : Signal) : s.complete (.done u g) = .next (Decoded.after u g) := by
  cases g <;> rfl

@[simp] theorem State.complete_suspend (s : State) : s.complete .suspend = .next s.suspend := rfl

/-- What raising a fatal error leaves (R357), with the values of R341 as the latch holds them. -/
theorem State.raiseFatal_fatalError (s : State) (c : FatalCause) (i0 i1 : Half) :
    s.raiseFatal (fatalError c i0 i1) = s.failed c.code i0 i1 := by
  simp [State.raiseFatal, State.finish]

/-- A decoder that raises a fatal error. -/
theorem State.complete_fatalError (s : State) (c : FatalCause) (i0 i1 : Half) :
    s.complete (.fatal (fatalError c i0 i1)) = .next (s.failed c.code i0 i1) :=
  congrArg Host.Outcome.next (s.raiseFatal_fatalError c i0 i1)

@[simp] theorem State.complete_fatal (s : State) (f : FatalError) : s.complete (.fatal f) = .next (s.raiseFatal f) := rfl

@[simp] theorem State.complete_overflow (s : State) : s.complete .overflow = .refused .positionOverflow := rfl

/-- A dispatched decoder that answers a next state was done, suspended or raised a fatal error. -/
theorem State.complete_next {s t : State} {d : Decoded} (h : s.complete d = .next t) :
    (∃ u g, d = .done u g ∧ t = Decoded.after u g) ∨ (d = .suspend ∧ t = s.suspend) ∨
      ∃ f, d = .fatal f ∧ t = s.raiseFatal f := by
  cases d with
  | done u g => exact .inl ⟨u, g, rfl, by simpa using h.symm⟩
  | suspend => exact .inr (.inl ⟨rfl, by simpa using h.symm⟩)
  | fatal f => exact .inr (.inr ⟨f, rfl, by simpa using h.symm⟩)
  | overflow => simp at h

theorem State.complete_ne_fault {s : State} {d : Decoded} {f : Fault} : s.complete d ≠ .fault f := by
  cases d <;> simp

theorem State.complete_refused {s : State} {d : Decoded} {r : Refusal} (h : s.complete d = .refused r) :
    d = .overflow ∧ r = .positionOverflow := by
  cases d <;> simp_all

/-! ### Waiting for a segment -/

/-- The discipline of the buffered kinds, case by case (R160). -/
theorem State.buffered_cases (s : State) (code : Byte) (ok : Half → Bool) (k : Half → List Byte → Decoded) :
    (s.source.avail < s.pos.toNat + 2 ∧ s.buffered code ok k = .suspend) ∨
    ∃ l, s.source.half s.pos.toNat = some l ∧
      ((ok l = false ∧ s.buffered code ok k = .fatal (badLength code l)) ∨
       (ok l = true ∧ s.source.avail < s.pos.toNat + l.toNat ∧ s.buffered code ok k = .suspend) ∨
       (ok l = true ∧ s.pos.toNat + l.toNat ≤ s.source.avail ∧
        s.buffered code ok k = k l (s.source.take (s.pos.toNat + 2) (l.toNat - 2)))) := by
  cases hl : s.source.half s.pos.toNat with
  | none => exact .inl ⟨ByteSource.half_eq_none.1 hl, by simp [State.buffered, hl]⟩
  | some l =>
    refine .inr ⟨l, rfl, ?_⟩
    cases ho : ok l with
    | false => exact .inl ⟨rfl, by simp [State.buffered, hl, ho]⟩
    | true =>
      by_cases hh : s.pos.toNat + l.toNat ≤ s.source.avail
      · exact .inr (.inr ⟨rfl, hh, by simp [State.buffered, hl, ho, ByteSource.has, hh]⟩)
      · exact .inr (.inl ⟨rfl, by omega, by simp [State.buffered, hl, ho, ByteSource.has, hh]⟩)

/-- A buffered kind that is done has read its whole segment, of at least two bytes. -/
theorem State.buffered_done {s u : State} {code : Byte} {ok : Half → Bool} {k : Half → List Byte → Decoded} {g : Signal}
    (h : s.buffered code ok k = .done u g) :
    ∃ l, s.source.half s.pos.toNat = some l ∧ ok l = true ∧ s.pos.toNat + l.toNat ≤ s.source.avail ∧
      k l (s.source.take (s.pos.toNat + 2) (l.toNat - 2)) = .done u g := by
  rcases s.buffered_cases code ok k with ⟨-, hb⟩ | ⟨l, hl, ⟨-, hb⟩ | ⟨-, -, hb⟩ | ⟨ho, hh, hb⟩⟩
  · rw [hb] at h; cases h
  · rw [hb] at h; cases h
  · rw [hb] at h; cases h
  · exact ⟨l, hl, ho, hh, hb ▸ h⟩

/-- The result of reading operands and committing. -/
theorem Decoded.ofRead_done {α : Type} {r : Except FatalError α} {k : α → Decoded} {u : State} {g : Signal}
    (h : Decoded.ofRead r k = .done u g) : ∃ a, r = .ok a ∧ k a = .done u g := by
  cases r with
  | error f => cases h
  | ok a => exact ⟨a, rfl, h⟩

theorem Decoded.commit_done {m : Option State} {u : State} {g g' : Signal} (h : Decoded.commit m g = .done u g') :
    m = some u ∧ g' = g := by
  cases m with
  | none => cases h
  | some v => cases h; exact ⟨rfl, rfl⟩

/-! ### The scanner's commits -/

@[simp] theorem Activity.rewind_run (a : Activity) : a.rewind.run = 0 := by cases a <;> rfl

/-- A progressive commit, with its next state. -/
theorem State.discard_next {s t : State} {counted n : Nat} :
    s.discard counted n = .next t ↔
      s.pos.toNat + n < 2 ^ 64 ∧
      t = { s with
              discardedByteCount := sat32Add s.discardedByteCount counted
              activity := s.activity.rewind
              pos := BitVec.ofNat 64 (s.pos.toNat + n) } := by
  rw [State.discard, orOverflow_next, State.advance_some]; rfl

/-- The commit of a marker found, with its next state. -/
theorem State.acquire_some {s t : State} {code : Byte} :
    s.acquire code = some t ↔
      s.pos.toNat + (s.activity.run + 2) < 2 ^ 64 ∧
      t = { s with
              events := (s.warnExtraneous code).events
              discardedByteCount := 0
              pendingMarker := code
              activity := s.activity.rewind
              pos := BitVec.ofNat 64 (s.pos.toNat + (s.activity.run + 2)) } := by
  rw [State.acquire, State.advance_some]
  simp only [State.warnExtraneous]
  split <;> rfl

theorem State.acquireFirst_some {s t : State} :
    s.acquireFirst = some t ↔
      s.pos.toNat + 2 < 2 ^ 64 ∧
      t = { s with
              pendingMarker := startOfImageCode
              activity := s.activity.rewind
              pos := BitVec.ofNat 64 (s.pos.toNat + 2) } := by
  rw [State.acquireFirst, State.advance_some]

/-- The events after a marker is found (R145). -/
theorem State.warnExtraneous_events (s : State) (code : Byte) :
    (s.warnExtraneous code).events = s.events ++
      (if s.discardedByteCount = 0 then []
        else [{ kind := .extraneousData, a := s.discardedByteCount, b := code.setWidth 32 }]) := by
  unfold State.warnExtraneous State.anyDiscarded
  by_cases h : s.discardedByteCount = 0
  · rw [if_pos h, h]; exact (List.append_nil _).symm
  · rw [if_neg h, if_pos (bne_iff_ne.2 h)]; rfl

/-- A command is run only by an idle core. -/
theorem State.whenIdle_next {s t : State} {k : StepOutcome} :
    s.whenIdle k = .next t ↔ s.activity = .idle ∧ k = .next t := by
  unfold State.whenIdle; split <;> simp_all

end Sys2Proof.Machine
end

