-- ==== Sys2Proof/Laws/Exec.lean ====
section
/-! SUPPORT. What a marker instruction can do, once for all of them: its decoder is done with one of the effects listed
here, or the command suspends, or a fatal error is taken (`41_frame_and_scan_headers.md` R160, `44_marker_reader.md` R281,
R282). -/

namespace Sys2Proof.Machine

/-- The instructions READ_MARKERS dispatches: every row of the stream but the two escapes. -/
def isMarker : Instr → Bool
  | .fill | .stuff | .nop | .resetStream | .readMarkers | .readRestartMarker => false
  | _ => true

/-- The codes of the accepted frame headers. -/
def frameCode : Instr → Option Byte
  | .sof0 => some 0xC0
  | .sof1 => some 0xC1
  | .sof2 => some 0xC2
  | .sof9 => some 0xC9
  | .sof10 => some 0xCA
  | _ => none

/-- The informational markers (R241 to R249). -/
def isInformational : Instr → Bool
  | .rst0 | .rst1 | .rst2 | .rst3 | .rst4 | .rst5 | .rst6 | .rst7 | .tem => true
  | _ => false

/-- The instructions that may run the Skip decoder (R223, R224). -/
def maySkip : Instr → Bool
  | .app0 | .app1 | .app2 | .app3 | .app4 | .app5 | .app6 | .app7 | .app8 | .app9 | .app10 | .app11 | .app12 | .app13
  | .app14 | .app15 | .com | .dnl => true
  | _ => false

/-- The payload of a segment whose length field at `pos` is `l`. -/
def State.payload (s : State) (l : Half) : List Byte := s.source.take (s.pos.toNat + 2) (l.toNat - 2)

/-- The declared segment of length `l` stands whole at `pos`, and `pos` can be moved past it. -/
structure State.Whole (s : State) (l : Half) : Prop where
  half  : s.source.half s.pos.toNat = some l
  two   : 2 ≤ l.toNat
  avail : s.pos.toNat + l.toNat ≤ s.source.avail
  room  : s.pos.toNat + l.toNat < 2 ^ 64

/-- What a marker instruction's decoder, run on `s`, has written when it is done, with its signal. -/
inductive Effect (s : State) : Instr → State → Signal → Prop
  | plain {i : Instr} (h : isInformational i = true) : Effect s i s .proceed
  | eoi : Effect s .eoi s .endOfStream
  | soi (h : s.sawStartOfImage = false) : Effect s .soi s.startImage .proceed
  | skip {i : Instr} {l : Half} (h : maySkip i = true) (hl : s.source.half s.pos.toNat = some l)
      (room : s.pos.toNat + consumed l < 2 ^ 64) :
      Effect s i { s with pos := BitVec.ofNat 64 (s.pos.toNat + consumed l) } .proceed
  | frame {i : Instr} {code : Byte} {l : Half} {o : FrameOperands} (h : frameCode i = some code)
      (fresh : s.sawFrameHeader = false) (whole : s.Whole l) (read : readFrame code l (s.payload l) = .ok o) :
      Effect s i { s.writeFrame code o with pos := BitVec.ofNat 64 (s.pos.toNat + l.toNat) } .proceed
  | scan {l : Half} {o : ScanOperands} {js : List Nat} (seen : s.sawFrameHeader = true) (whole : s.Whole l)
      (read : readScan l (s.payload l) = .ok o) (named : resolveSelectors s.frame.components o.components = .ok js) :
      Effect s .sos { s.writeScan o js with pos := BitVec.ofNat 64 (s.pos.toNat + l.toNat) } .scanStart
  | quant {l : Half} {defs : List QuantDef} (whole : s.Whole l)
      (read : readQuantDefs l (s.payload l).length (s.payload l) = .ok defs) :
      Effect s .dqt
        { s with
            quant := defs.foldl QuantRegs.define s.quant, pos := BitVec.ofNat 64 (s.pos.toNat + l.toNat) } .proceed
  | huff {l : Half} {defs : List HuffDef} (whole : s.Whole l)
      (read : readHuffDefs l (s.payload l).length (s.payload l) = .ok defs) :
      Effect s .dht
        { s with huff := defs.foldl defineHuff s.huff, pos := BitVec.ofNat 64 (s.pos.toNat + l.toNat) } .proceed
  | arith {l : Half} {es : List DacEntry} (whole : s.Whole l) (read : readDacEntries l (s.payload l) = .ok es) :
      Effect s .dac
        { s with arith := es.foldl ArithRegs.apply s.arith, pos := BitVec.ofNat 64 (s.pos.toNat + l.toNat) } .proceed
  | interval {l : Half} {r1 r0 : Byte} (whole : s.Whole l) (read : s.payload l = [r1, r0]) :
      Effect s .dri
        { s with restartInterval := be16 r1 r0, pos := BitVec.ofNat 64 (s.pos.toNat + l.toNat) } .proceed
  | jfif {l : Half} {j : JfifOperands} (hl : s.source.half s.pos.toNat = some l)
      (room : s.pos.toNat + consumed l < 2 ^ 64) :
      Effect s .app0
        { ((s.warnMajor j).warnThumbnail j (l.toNat - 2 - app0FixedLength)).writeJfif j with
            pos := BitVec.ofNat 64 (s.pos.toNat + consumed l) } .proceed
  | adobe {l : Half} {a : AdobeOperands} (hl : s.source.half s.pos.toNat = some l)
      (room : s.pos.toNat + consumed l < 2 ^ 64) :
      Effect s .app14 { s.writeAdobe a with pos := BitVec.ofNat 64 (s.pos.toNat + consumed l) } .proceed

/-- The decoder a marker instruction runs (R282). -/
def decoderOf (i : Instr) (s : State) : Decoded :=
  match i with
  | .tem | .rst0 | .rst1 | .rst2 | .rst3 | .rst4 | .rst5 | .rst6 | .rst7 => informational s
  | .eoi => decodeEoi s
  | .soi => decodeSoi s
  | .sof0 => decodeFrameHeader 0xC0 s
  | .sof1 => decodeFrameHeader 0xC1 s
  | .sof2 => decodeFrameHeader 0xC2 s
  | .sof9 => decodeFrameHeader 0xC9 s
  | .sof10 => decodeFrameHeader 0xCA s
  | .sof3 => unsupportedFrame 0xC3
  | .sof5 => unsupportedFrame 0xC5
  | .sof6 => unsupportedFrame 0xC6
  | .sof7 => unsupportedFrame 0xC7
  | .jpg => unsupportedFrame 0xC8
  | .sof11 => unsupportedFrame 0xCB
  | .sof13 => unsupportedFrame 0xCD
  | .sof14 => unsupportedFrame 0xCE
  | .sof15 => unsupportedFrame 0xCF
  | .sos => decodeScanHeader s
  | .dqt => decodeDqt s
  | .dht => decodeDht s
  | .dac => decodeDac s
  | .dri => decodeDri s
  | .app0 => if s.config.app0 then decodeApp0 s else skipVariable s
  | .app14 => if s.config.app14 then decodeApp14 s else skipVariable s
  | .app1 | .app2 | .app3 | .app4 | .app5 | .app6 | .app7 | .app8 | .app9 | .app10 | .app11 | .app12 | .app13 | .app15
  | .com | .dnl => skipVariable s
  | .res code => unknownMarker code
  | .dhp => unknownMarker 0xDE
  | .exp => unknownMarker 0xDF
  | .jpg0 => unknownMarker 0xF0
  | .jpg1 => unknownMarker 0xF1
  | .jpg2 => unknownMarker 0xF2
  | .jpg3 => unknownMarker 0xF3
  | .jpg4 => unknownMarker 0xF4
  | .jpg5 => unknownMarker 0xF5
  | .jpg6 => unknownMarker 0xF6
  | .jpg7 => unknownMarker 0xF7
  | .jpg8 => unknownMarker 0xF8
  | .jpg9 => unknownMarker 0xF9
  | .jpg10 => unknownMarker 0xFA
  | .jpg11 => unknownMarker 0xFB
  | .jpg12 => unknownMarker 0xFC
  | .jpg13 => unknownMarker 0xFD
  | .fill | .stuff | .nop | .resetStream | .readMarkers | .readRestartMarker => .suspend

/-- A marker instruction dispatches its decoder. -/
theorem exec_eq_complete {i : Instr} (h : isMarker i = true) (s : State) : exec i s = s.complete (decoderOf i s) := by
  cases i <;> first | rfl | cases h

theorem lengthAtLeastTwo_iff (l : Half) : lengthAtLeastTwo l = true ↔ 2 ≤ l.toNat := by simp [lengthAtLeastTwo]

theorem lengthIsFour_iff (l : Half) : lengthIsFour l = true ↔ l.toNat = 4 := by simp [lengthIsFour]

theorem decodeSoi_done {s u : State} {g : Signal} (h : decodeSoi s = .done u g) : Effect s .soi u g := by
  unfold decodeSoi at h
  split at h
  · cases h
  · rename_i hs; cases h; exact .soi (by simpa using hs)

theorem decodeFrameHeader_done {s u : State} {g : Signal} {i : Instr} {code : Byte} (hi : frameCode i = some code)
    (h : decodeFrameHeader code s = .done u g) : Effect s i u g := by
  unfold decodeFrameHeader at h
  split at h
  · cases h
  · rename_i hs
    obtain ⟨l, hl, ho, hav, h⟩ := State.buffered_done h
    obtain ⟨o, hr, h⟩ := Decoded.ofRead_done h
    obtain ⟨hm, rfl⟩ := Decoded.commit_done h
    obtain ⟨hroom, rfl⟩ := State.advance_some.1 hm
    exact .frame hi (by simpa using hs) ⟨hl, (lengthAtLeastTwo_iff l).1 ho, hav, hroom⟩ hr

theorem decodeScanHeader_done {s u : State} {g : Signal} (h : decodeScanHeader s = .done u g) : Effect s .sos u g := by
  unfold decodeScanHeader at h
  split at h
  · rename_i hs
    obtain ⟨l, hl, ho, hav, h⟩ := State.buffered_done h
    obtain ⟨o, hr, h⟩ := Decoded.ofRead_done h
    obtain ⟨js, hj, h⟩ := Decoded.ofRead_done h
    obtain ⟨hm, rfl⟩ := Decoded.commit_done h
    obtain ⟨hroom, rfl⟩ := State.advance_some.1 hm
    exact .scan hs ⟨hl, (lengthAtLeastTwo_iff l).1 ho, hav, hroom⟩ hr hj
  · cases h

theorem decodeDqt_done {s u : State} {g : Signal} (h : decodeDqt s = .done u g) : Effect s .dqt u g := by
  obtain ⟨l, hl, ho, hav, h⟩ := State.buffered_done h
  obtain ⟨defs, hr, h⟩ := Decoded.ofRead_done h
  obtain ⟨hm, rfl⟩ := Decoded.commit_done h
  obtain ⟨hroom, rfl⟩ := State.advance_some.1 hm
  exact .quant ⟨hl, (lengthAtLeastTwo_iff l).1 ho, hav, hroom⟩ hr

theorem decodeDht_done {s u : State} {g : Signal} (h : decodeDht s = .done u g) : Effect s .dht u g := by
  obtain ⟨l, hl, ho, hav, h⟩ := State.buffered_done h
  obtain ⟨defs, hr, h⟩ := Decoded.ofRead_done h
  obtain ⟨hm, rfl⟩ := Decoded.commit_done h
  obtain ⟨hroom, rfl⟩ := State.advance_some.1 hm
  exact .huff ⟨hl, (lengthAtLeastTwo_iff l).1 ho, hav, hroom⟩ hr

theorem decodeDac_done {s u : State} {g : Signal} (h : decodeDac s = .done u g) : Effect s .dac u g := by
  obtain ⟨l, hl, ho, hav, h⟩ := State.buffered_done h
  obtain ⟨es, hr, h⟩ := Decoded.ofRead_done h
  obtain ⟨hm, rfl⟩ := Decoded.commit_done h
  obtain ⟨hroom, rfl⟩ := State.advance_some.1 hm
  exact .arith ⟨hl, (lengthAtLeastTwo_iff l).1 ho, hav, hroom⟩ hr

theorem decodeDri_done {s u : State} {g : Signal} (h : decodeDri s = .done u g) : Effect s .dri u g := by
  obtain ⟨l, hl, ho, hav, h⟩ := State.buffered_done h
  split at h
  · rename_i r1 r0 hp
    obtain ⟨hm, rfl⟩ := Decoded.commit_done h
    obtain ⟨hroom, rfl⟩ := State.advance_some.1 hm
    exact .interval ⟨hl, by have := (lengthIsFour_iff l).1 ho; omega, hav, hroom⟩ hp
  · cases h

theorem skipVariable_done {s u : State} {g : Signal} {i : Instr} (hi : maySkip i = true)
    (h : skipVariable s = .done u g) : Effect s i u g := by
  unfold skipVariable at h
  split at h
  · cases h
  · rename_i l hl
    obtain ⟨hm, rfl⟩ := Decoded.commit_done h
    obtain ⟨hroom, rfl⟩ := State.advance_some.1 hm
    exact .skip hi hl hroom

theorem decodeApp0_done {s u : State} {g : Signal} (h : decodeApp0 s = .done u g) : Effect s .app0 u g := by
  unfold decodeApp0 at h
  split at h
  · cases h
  · rename_i l hl
    simp only at h
    split at h
    · split at h <;> obtain ⟨hm, rfl⟩ := Decoded.commit_done h <;> obtain ⟨hroom, rfl⟩ := State.advance_some.1 hm
      · have hp : ∀ j n, (((s.warnMajor j).warnThumbnail j n).writeJfif j).pos = s.pos := by simp
        rw [hp] at hroom ⊢
        exact .jfif hl hroom
      · exact .skip rfl hl hroom
    · cases h

theorem decodeApp14_done {s u : State} {g : Signal} (h : decodeApp14 s = .done u g) : Effect s .app14 u g := by
  unfold decodeApp14 at h
  split at h
  · cases h
  · rename_i l hl
    simp only at h
    split at h
    · split at h <;> obtain ⟨hm, rfl⟩ := Decoded.commit_done h <;> obtain ⟨hroom, rfl⟩ := State.advance_some.1 hm
      · exact .adobe hl hroom
      · exact .skip rfl hl hroom
    · cases h

/-- Every decoder that is done has one of the listed effects. -/
theorem decoderOf_done {i : Instr} {s u : State} {g : Signal} (h : decoderOf i s = .done u g) : Effect s i u g := by
  cases i
  case soi => exact decodeSoi_done h
  case eoi => cases h; exact .eoi
  case sos => exact decodeScanHeader_done h
  case dqt => exact decodeDqt_done h
  case dht => exact decodeDht_done h
  case dac => exact decodeDac_done h
  case dri => exact decodeDri_done h
  case app0 =>
    simp only [decoderOf] at h
    split at h
    · exact decodeApp0_done h
    · exact skipVariable_done rfl h
  case app14 =>
    simp only [decoderOf] at h
    split at h
    · exact decodeApp14_done h
    · exact skipVariable_done rfl h
  all_goals first
    | exact decodeFrameHeader_done rfl h
    | exact skipVariable_done rfl h
    | (cases h; exact .plain rfl)
    | cases h

/-- A marker instruction that answers a next state: one of the listed effects, a suspension, or a fatal error. -/
theorem exec_marker_next {i : Instr} {s t : State} (hi : isMarker i = true) (h : exec i s = .next t) :
    (∃ u g, Effect s i u g ∧ t = Decoded.after u g) ∨ t = s.suspend ∨ ∃ f, t = s.raiseFatal f := by
  rw [exec_eq_complete hi] at h
  rcases State.complete_next h with ⟨u, g, hd, rfl⟩ | ⟨-, rfl⟩ | ⟨f, -, rfl⟩
  · exact .inl ⟨u, g, decoderOf_done hd, rfl⟩
  · exact .inr (.inl rfl)
  · exact .inr (.inr ⟨f, rfl⟩)

/-- A marker instruction never faults and is refused only for want of room. -/
theorem exec_marker_ne_fault {i : Instr} {s : State} {f : Fault} (hi : isMarker i = true) : exec i s ≠ .fault f := by
  rw [exec_eq_complete hi]; exact State.complete_ne_fault

theorem exec_marker_refused {i : Instr} {s : State} {r : Refusal} (hi : isMarker i = true) (h : exec i s = .refused r) :
    r = .positionOverflow := by
  rw [exec_eq_complete hi] at h; exact (State.complete_refused h).2

end Sys2Proof.Machine
end

