-- ==== Sys2Proof/Laws/Frames.lean ====
section
/-! SUPPORT. What no marker instruction touches, and when one is refused: the state elements outside every effect
(`10_state.md` R41, `20_memory.md` R71), the room that a commit needs (R22). -/

namespace Sys2Proof.Machine

/-! ### The two JFIF warnings write the event log only (R220, R355) -/

theorem State.warnMajor_eq (s : State) (j : JfifOperands) :
    s.warnMajor j = { s with events := (s.warnMajor j).events } := by
  unfold State.warnMajor; split <;> rfl

theorem State.warnThumbnail_eq (s : State) (j : JfifOperands) (n : Nat) :
    s.warnThumbnail j n = { s with events := (s.warnThumbnail j n).events } := by
  unfold State.warnThumbnail; split <;> rfl

theorem State.warnMajor_prefix (s : State) (j : JfifOperands) : s.events <+: (s.warnMajor j).events := by
  unfold State.warnMajor; split
  · exact List.prefix_rfl
  · exact List.prefix_append _ _

theorem State.warnThumbnail_prefix (s : State) (j : JfifOperands) (n : Nat) :
    s.events <+: (s.warnThumbnail j n).events := by
  unfold State.warnThumbnail; split
  · exact List.prefix_rfl
  · exact List.prefix_append _ _

/-! ### Effects -/

/-- No decoder that is done writes the latch (R357). -/
theorem Effect.latch {s u : State} {i : Instr} {g : Signal} (h : Effect s i u g) : u.latch = s.latch := by
  cases h <;> simp [State.startImage, State.markStartOfImage, State.writeFrame, State.markFrameHeader,
    State.writeScan, State.markScan, State.writeAdobe, State.writeJfif]

/-- No decoder that is done touches the command in progress. -/
theorem Effect.activity {s u : State} {i : Instr} {g : Signal} (h : Effect s i u g) : u.activity = s.activity := by
  cases h <;> first | exact rfl | (rw [State.warnThumbnail_eq, State.warnMajor_eq]; rfl)

@[simp] theorem Decoded.after_latch (u : State) (g : Signal) : (Decoded.after u g).latch = u.latch := by cases g <;> rfl

@[simp] theorem Decoded.after_pos (u : State) (g : Signal) : (Decoded.after u g).pos = u.pos := by cases g <;> rfl

@[simp] theorem Decoded.after_pendingMarker (u : State) (g : Signal) : (Decoded.after u g).pendingMarker = 0 := by
  cases g <;> rfl

/-! ### What every marker instruction keeps -/

/-- The source, the configuration and the inputs stand, `pos` does not go back and the log only grows. -/
theorem exec_marker_keeps {i : Instr} {s t : State} (hm : isMarker i = true) (h : exec i s = .next t) :
    t.config = s.config ∧ t.source = s.source ∧ t.inputs = s.inputs ∧ s.pos.toNat ≤ t.pos.toNat ∧
      s.events <+: t.events := by
  rcases exec_marker_next hm h with ⟨u, g, he, rfl⟩ | rfl | ⟨f, rfl⟩
  · have hu : u.config = s.config ∧ u.source = s.source ∧ u.inputs = s.inputs ∧ s.pos.toNat ≤ u.pos.toNat ∧
        s.events <+: u.events := by
      cases he with
      | jfif hl room =>
        refine ⟨?_, ?_, ?_, ?_, ?_⟩
        · rw [State.warnThumbnail_eq, State.warnMajor_eq]; rfl
        · rw [State.warnThumbnail_eq, State.warnMajor_eq]; rfl
        · rw [State.warnThumbnail_eq, State.warnMajor_eq]; rfl
        · simp only [toNat_ofNat_pos room]; omega
        · exact (State.warnMajor_prefix _ _).trans (State.warnThumbnail_prefix _ _ _)
      | plain => exact ⟨rfl, rfl, rfl, le_refl _, List.prefix_rfl⟩
      | eoi => exact ⟨rfl, rfl, rfl, le_refl _, List.prefix_rfl⟩
      | soi => exact ⟨rfl, rfl, rfl, le_refl _, List.prefix_rfl⟩
      | skip _ _ room => exact ⟨rfl, rfl, rfl, by simp only [toNat_ofNat_pos room]; omega, List.prefix_rfl⟩
      | adobe _ room => exact ⟨rfl, rfl, rfl, by simp only [toNat_ofNat_pos room]; omega, List.prefix_rfl⟩
      | frame _ _ w _ => exact ⟨rfl, rfl, rfl, by simp only [toNat_ofNat_pos w.room]; omega, List.prefix_rfl⟩
      | scan _ w _ => exact ⟨rfl, rfl, rfl, by simp only [toNat_ofNat_pos w.room]; omega, List.prefix_rfl⟩
      | quant w _ => exact ⟨rfl, rfl, rfl, by simp only [toNat_ofNat_pos w.room]; omega, List.prefix_rfl⟩
      | huff w _ => exact ⟨rfl, rfl, rfl, by simp only [toNat_ofNat_pos w.room]; omega, List.prefix_rfl⟩
      | arith w _ => exact ⟨rfl, rfl, rfl, by simp only [toNat_ofNat_pos w.room]; omega, List.prefix_rfl⟩
      | interval w _ => exact ⟨rfl, rfl, rfl, by simp only [toNat_ofNat_pos w.room]; omega, List.prefix_rfl⟩
    cases g <;> exact hu
  · exact ⟨rfl, rfl, rfl, le_refl _, List.prefix_rfl⟩
  · exact ⟨rfl, rfl, rfl, le_refl _, List.prefix_rfl⟩

/-! ### Room -/

/-- There is no room behind `pos` for the bytes a decoder would consume. -/
abbrev State.NoRoom (s : State) : Prop :=
  ∃ l : Half, s.source.half s.pos.toNat = some l ∧ 2 ^ 64 ≤ s.pos.toNat + max l.toNat 2

theorem Decoded.commit_overflow {v : State} {n : Nat} {g : Signal} (h : Decoded.commit (v.advance n) g = .overflow) :
    2 ^ 64 ≤ v.pos.toNat + n := by
  rw [Decoded.commit_advance] at h
  split at h
  · cases h
  · omega

theorem Decoded.ofRead_overflow {α : Type} {r : Except FatalError α} {k : α → Decoded}
    (h : Decoded.ofRead r k = .overflow) : ∃ a, r = .ok a ∧ k a = .overflow := by
  cases r with
  | error f => cases h
  | ok a => exact ⟨a, rfl, h⟩

theorem State.buffered_overflow {s : State} {code : Byte} {ok : Half → Bool} {k : Half → List Byte → Decoded}
    (h : s.buffered code ok k = .overflow) : ∃ l p, s.source.half s.pos.toNat = some l ∧ k l p = .overflow := by
  rcases s.buffered_cases code ok k with ⟨-, hb⟩ | ⟨l, hl, ⟨-, hb⟩ | ⟨-, -, hb⟩ | ⟨ho, hh, hb⟩⟩ <;>
    rw [hb] at h
  · cases h
  · cases h
  · cases h
  · exact ⟨l, _, hl, h⟩

theorem decodeFrameHeader_overflow {s : State} {code : Byte} (h : decodeFrameHeader code s = .overflow) : s.NoRoom := by
  unfold decodeFrameHeader at h
  split at h
  · cases h
  · obtain ⟨l, p, hl, h⟩ := State.buffered_overflow h
    obtain ⟨o, -, h⟩ := Decoded.ofRead_overflow h
    have := Decoded.commit_overflow h
    exact ⟨l, hl, by simp only [State.writeFrame, State.markFrameHeader] at this; omega⟩

theorem decodeScanHeader_overflow {s : State} (h : decodeScanHeader s = .overflow) : s.NoRoom := by
  unfold decodeScanHeader at h
  split at h
  · obtain ⟨l, p, hl, h⟩ := State.buffered_overflow h
    obtain ⟨o, -, h⟩ := Decoded.ofRead_overflow h
    obtain ⟨js, -, h⟩ := Decoded.ofRead_overflow h
    have := Decoded.commit_overflow h
    exact ⟨l, hl, by simp only [State.writeScan, State.markScan] at this; omega⟩
  · cases h

theorem decodeDqt_overflow {s : State} (h : decodeDqt s = .overflow) : s.NoRoom := by
  obtain ⟨l, p, hl, h⟩ := State.buffered_overflow h
  obtain ⟨o, -, h⟩ := Decoded.ofRead_overflow h
  have := Decoded.commit_overflow h
  exact ⟨l, hl, by simp only at this; omega⟩

theorem decodeDht_overflow {s : State} (h : decodeDht s = .overflow) : s.NoRoom := by
  obtain ⟨l, p, hl, h⟩ := State.buffered_overflow h
  obtain ⟨o, -, h⟩ := Decoded.ofRead_overflow h
  have := Decoded.commit_overflow h
  exact ⟨l, hl, by simp only at this; omega⟩

theorem decodeDac_overflow {s : State} (h : decodeDac s = .overflow) : s.NoRoom := by
  obtain ⟨l, p, hl, h⟩ := State.buffered_overflow h
  obtain ⟨o, -, h⟩ := Decoded.ofRead_overflow h
  have := Decoded.commit_overflow h
  exact ⟨l, hl, by simp only at this; omega⟩

theorem decodeDri_overflow {s : State} (h : decodeDri s = .overflow) : s.NoRoom := by
  obtain ⟨l, p, hl, h⟩ := State.buffered_overflow h
  split at h
  · have := Decoded.commit_overflow h
    exact ⟨l, hl, by simp only at this; omega⟩
  · cases h

theorem skipVariable_overflow {s : State} (h : skipVariable s = .overflow) : s.NoRoom := by
  unfold skipVariable at h
  split at h
  · cases h
  · rename_i l hl
    exact ⟨l, hl, Decoded.commit_overflow h⟩

theorem decodeApp0_overflow {s : State} (h : decodeApp0 s = .overflow) : s.NoRoom := by
  unfold decodeApp0 at h
  split at h
  · cases h
  · rename_i l hl
    simp only at h
    split at h
    · split at h
      · have := Decoded.commit_overflow h
        refine ⟨l, hl, ?_⟩
        rw [State.warnThumbnail_eq, State.warnMajor_eq] at this; exact this
      · exact ⟨l, hl, Decoded.commit_overflow h⟩
    · cases h

theorem decodeApp14_overflow {s : State} (h : decodeApp14 s = .overflow) : s.NoRoom := by
  unfold decodeApp14 at h
  split at h
  · cases h
  · rename_i l hl
    simp only at h
    split at h
    · split at h
      · have := Decoded.commit_overflow h
        exact ⟨l, hl, this⟩
      · exact ⟨l, hl, Decoded.commit_overflow h⟩
    · cases h

/-- The only refused situation of a decoder is that there is no room for its bytes (R22, R364 (c)). -/
theorem decoderOf_overflow {i : Instr} {s : State} (h : decoderOf i s = .overflow) : s.NoRoom := by
  cases i
  case soi => simp only [decoderOf, decodeSoi] at h; split at h <;> cases h
  case sos => exact decodeScanHeader_overflow h
  case dqt => exact decodeDqt_overflow h
  case dht => exact decodeDht_overflow h
  case dac => exact decodeDac_overflow h
  case dri => exact decodeDri_overflow h
  case app0 =>
    simp only [decoderOf] at h
    split at h
    · exact decodeApp0_overflow h
    · exact skipVariable_overflow h
  case app14 =>
    simp only [decoderOf] at h
    split at h
    · exact decodeApp14_overflow h
    · exact skipVariable_overflow h
  all_goals first
    | exact decodeFrameHeader_overflow h
    | exact skipVariable_overflow h
    | (exfalso; cases h)

end Sys2Proof.Machine
end

