-- ==== Sys2Proof/Laws/MoreBytes.lean ====
section
/-! SUPPORT. More bytes change nothing but suspensions (`44_marker_reader.md` R290): a decoder that does not suspend ends the
same way on a source that has supplied more, and what an earlier command left in the result port plays no part. -/

namespace Sys2Proof.Machine

/-! ### Sources that have supplied more -/

/-- `b` holds every byte that `a` holds, and perhaps more (R71, R72). -/
structure Extends (a b : ByteSource) : Prop where
  le : a.avail ≤ b.avail
  same : ∀ k, k < a.avail → Memory.read b.bytes k = Memory.read a.bytes k

theorem Extends.refl (a : ByteSource) : Extends a a := ⟨le_refl _, fun _ _ => rfl⟩
theorem Extends.of_fill (a : ByteSource) (bs : List Byte) (h : Memory.wf a.bytes) : Extends a (a.fill bs) :=
  ⟨by simp, fun k hk => Memory.read_writeBytes_of_lt bs h hk⟩

theorem Extends.peek {a b : ByteSource} (h : Extends a b) {k : Nat} {v : Byte}
    (hp : a.peek k = some v) : b.peek k = some v := by
  obtain ⟨h1, h2⟩ := ByteSource.peek_eq_some.1 hp
  exact ByteSource.peek_eq_some.2 ⟨lt_of_lt_of_le h1 h.le, by rw [h.same k h1]; exact h2⟩

theorem Extends.half {a b : ByteSource} (h : Extends a b) {k : Nat} {v : Half}
    (hp : a.half k = some v) : b.half k = some v := by
  obtain ⟨h1, h2⟩ := ByteSource.half_eq_some.1 hp
  have := h.le
  exact ByteSource.half_eq_some.2 ⟨by omega, by rw [h.same k (by omega), h.same (k+1) (by omega)]; exact h2⟩

theorem Extends.has {a b : ByteSource} (h : Extends a b) {k n : Nat} (hp : a.has k n = true) : b.has k n = true := by
  rw [ByteSource.has_iff] at *
  have := h.le; omega

theorem Extends.take {a b : ByteSource}
    (h : Extends a b) (n : Nat) : ∀ k, k + n ≤ a.avail → b.take k n = a.take k n := by
  induction n with
  | zero => intro k _; rfl
  | succ n ih =>
    intro k hk
    simp only [ByteSource.take]
    rw [h.same k (by omega), ih (k+1) (by omega)]

/-- The state on another source, with another result of an earlier command. -/
def State.onSource (s : State) (src : ByteSource) (r : Result) : State := { s with source := src, result := r }

/-- The same decoder outcome on another source. -/
def Decoded.onSource (src : ByteSource) (r : Result) : Decoded → Decoded
  | .done s g => .done (s.onSource src r) g
  | .suspend => .suspend
  | .fatal f => .fatal f
  | .overflow => .overflow

variable {src : ByteSource} {r : Result}

/-! ### Decoders -/

theorem Decoded.commit_onSource (v : State) (n : Nat) (g : Signal) : Decoded.commit
    ((v.onSource src r).advance n) g = Decoded.onSource src r (Decoded.commit (v.advance n) g) := by
  rw [Decoded.commit_advance, Decoded.commit_advance]
  show (if v.pos.toNat + n < 2^64 then _ else _) = _
  by_cases h : v.pos.toNat + n < 2 ^ 64
  · rw [if_pos h, if_pos h]; rfl
  · rw [if_neg h, if_neg h]; rfl

theorem Decoded.ofRead_onSource {α} (x : Except FatalError α) (k k' : α → Decoded)
    (h : ∀ a, k' a = Decoded.onSource src r (k a)) :
    Decoded.ofRead x k' = Decoded.onSource src r (Decoded.ofRead x k) := by
  cases x with
  | error f => rfl
  | ok a => exact h a

theorem State.buffered_onSource {s : State} (hx : Extends s.source src) (code) (ok)
    (k k' : Half → List Byte → Decoded)
    (hk : ∀ l p, k' l p = Decoded.onSource src r (k l p)) (hs : src = s.source ∨ s.buffered code ok k ≠ .suspend) :
    (s.onSource src r).buffered code ok k' = Decoded.onSource src r (s.buffered code ok k) := by
  rcases hs with rfl | hs
  · rcases s.buffered_cases code ok k with ⟨ha, hb⟩ | ⟨l, hl, ⟨ho, hb⟩ | ⟨ho, hav, hb⟩ | ⟨ho, hav, hb⟩⟩ <;>
      rw [hb]
    · simp only [State.buffered, State.onSource, ByteSource.half_eq_none.2 ha]; rfl
    · simp only [State.buffered, State.onSource, hl, ho]; rfl
    · simp only [State.buffered, State.onSource, hl, ho, ByteSource.has_of_lt hav]; rfl
    · simp only [State.buffered, State.onSource, hl, ho, ByteSource.has_of_le hav, if_true]; exact hk _ _
  · rcases s.buffered_cases code ok k with ⟨ha, hb⟩ | ⟨l, hl, ⟨ho, hb⟩ | ⟨ho, hav, hb⟩ | ⟨ho, hav, hb⟩⟩
    · exact absurd hb hs
    · rw [hb]; simp only [State.buffered, State.onSource, hx.half hl, ho]; rfl
    · exact absurd hb hs
    · have := ByteSource.half_eq_some.1 hl
      rw [hb]
      simp only [State.buffered, State.onSource, hx.half hl, ho, hx.has (ByteSource.has_of_le hav), if_true]
      by_cases h2 : 2 ≤ l.toNat
      · rw [hx.take _ _ (by omega)]; exact hk _ _
      · rw [show l.toNat - 2 = 0 by omega]; exact hk _ _

theorem skipVariable_onSource {s : State} (hx : Extends s.source src)
    (hs : src = s.source ∨ skipVariable s ≠ .suspend) :
    skipVariable (s.onSource src r) = Decoded.onSource src r (skipVariable s) := by
  unfold skipVariable at *
  cases hl : s.source.half s.pos.toNat with
  | none =>
    rcases hs with rfl | hs
    · simp only [State.onSource, hl]; rfl
    · rw [hl] at hs; exact absurd rfl hs
  | some l =>
    have : (s.onSource src r).source.half (s.onSource src r).pos.toNat = some l := hx.half hl
    rw [this]; exact Decoded.commit_onSource _ _ _

theorem decodeFrameHeader_onSource {s : State} (hx : Extends s.source src) (c)
    (hs : src = s.source ∨ decodeFrameHeader c s ≠ .suspend) :
    decodeFrameHeader c (s.onSource src r) = Decoded.onSource src r (decodeFrameHeader c s) := by
  unfold decodeFrameHeader at *
  by_cases hf : s.sawFrameHeader = true
  · rw [if_pos hf, if_pos (by exact hf)]; rfl
  · rw [if_neg hf] at hs
    rw [if_neg hf, if_neg (by exact hf)]
    refine State.buffered_onSource hx _ _ _ _ (fun l p => ?_) hs
    exact Decoded.ofRead_onSource _ _ _ fun a => Decoded.commit_onSource (s.writeFrame c a) _ _

theorem decodeScanHeader_onSource {s : State} (hx : Extends s.source src)
    (hs : src = s.source ∨ decodeScanHeader s ≠ .suspend) :
    decodeScanHeader (s.onSource src r) = Decoded.onSource src r (decodeScanHeader s) := by
  unfold decodeScanHeader at *
  by_cases hf : s.sawFrameHeader = true
  · rw [if_pos hf] at hs
    rw [if_pos hf, if_pos (by exact hf)]
    refine State.buffered_onSource hx _ _ _ _ (fun l p => ?_) hs
    exact Decoded.ofRead_onSource _ _ _ fun a =>
      Decoded.ofRead_onSource _ _ _ fun js => Decoded.commit_onSource (s.writeScan a js) _ _
  · rw [if_neg hf, if_neg (by exact hf)]; rfl

theorem decodeApp0_onSource {s : State} (hx : Extends s.source src) (hs : src = s.source ∨ decodeApp0 s ≠ .suspend) :
    decodeApp0 (s.onSource src r) = Decoded.onSource src r (decodeApp0 s) := by
  unfold decodeApp0 at *
  cases hl : s.source.half s.pos.toNat with
  | none =>
    rcases hs with rfl | hs
    · simp only [State.onSource, hl]; rfl
    · rw [hl] at hs; exact absurd rfl hs
  | some l =>
    have h1 : (s.onSource src r).source.half (s.onSource src r).pos.toNat = some l := hx.half hl
    rw [h1]
    rw [hl] at hs
    simp only at hs ⊢
    by_cases hh : s.source.has s.pos.toNat (2 + examined l app0FixedLength) = true
    · rw [if_pos hh, if_pos (show (s.onSource src r).source.has (s.onSource src r).pos.toNat _ = true from hx.has hh)]
      have ht : (s.onSource src r).source.take ((s.onSource src r).pos.toNat + 2) (examined l app0FixedLength) =
          s.source.take (s.pos.toNat + 2) (examined l app0FixedLength) :=
        hx.take _ _ (by have := (ByteSource.has_iff _ _ _).1 hh; show s.pos.toNat + 2 + _ ≤ _; omega)
      rw [ht]
      split
      · rename_i j hj
        rw [← Decoded.commit_onSource]
        congr 1
        simp only [State.advance, State.moveTo, State.onSource, State.warnMajor, State.warnThumbnail,
          State.writeJfif, State.emit]
        split <;> split <;> rfl
      · exact Decoded.commit_onSource _ _ _
    · rcases hs with rfl | hs
      · rw [if_neg hh, if_neg (by exact hh)]; rfl
      · rw [if_neg hh] at hs; exact absurd rfl hs

theorem decodeApp14_onSource {s : State} (hx : Extends s.source src)
    (hs : src = s.source ∨ decodeApp14 s ≠ .suspend) :
    decodeApp14 (s.onSource src r) = Decoded.onSource src r (decodeApp14 s) := by
  unfold decodeApp14 at *
  cases hl : s.source.half s.pos.toNat with
  | none =>
    rcases hs with rfl | hs
    · simp only [State.onSource, hl]; rfl
    · rw [hl] at hs; exact absurd rfl hs
  | some l =>
    have h1 : (s.onSource src r).source.half (s.onSource src r).pos.toNat = some l := hx.half hl
    rw [h1]
    rw [hl] at hs
    simp only at hs ⊢
    by_cases hh : s.source.has s.pos.toNat (2 + examined l app14FixedLength) = true
    · rw [if_pos hh, if_pos (show (s.onSource src r).source.has (s.onSource src r).pos.toNat _ = true from hx.has hh)]
      have ht : (s.onSource src r).source.take ((s.onSource src r).pos.toNat + 2) (examined l app14FixedLength) =
          s.source.take (s.pos.toNat + 2) (examined l app14FixedLength) :=
        hx.take _ _ (by have := (ByteSource.has_iff _ _ _).1 hh; show s.pos.toNat + 2 + _ ≤ _; omega)
      rw [ht]
      split
      · rename_i a ha
        exact Decoded.commit_onSource (s.writeAdobe a) _ _
      · exact Decoded.commit_onSource _ _ _
    · rcases hs with rfl | hs
      · rw [if_neg hh, if_neg (by exact hh)]; rfl
      · rw [if_neg hh] at hs; exact absurd rfl hs

theorem decodeDqt_onSource {s : State} (hx : Extends s.source src) (hs : src = s.source ∨ decodeDqt s ≠ .suspend) :
    decodeDqt (s.onSource src r) = Decoded.onSource src r (decodeDqt s) := by
  unfold decodeDqt at *
  exact State.buffered_onSource hx _ _ _ _ (fun l p =>
    Decoded.ofRead_onSource _ _ _ fun a => Decoded.commit_onSource { s with quant := _ } _ _) hs

theorem decodeDht_onSource {s : State} (hx : Extends s.source src) (hs : src = s.source ∨ decodeDht s ≠ .suspend) :
    decodeDht (s.onSource src r) = Decoded.onSource src r (decodeDht s) := by
  unfold decodeDht at *
  exact State.buffered_onSource hx _ _ _ _ (fun l p =>
    Decoded.ofRead_onSource _ _ _ fun a => Decoded.commit_onSource { s with huff := _ } _ _) hs

theorem decodeDac_onSource {s : State} (hx : Extends s.source src) (hs : src = s.source ∨ decodeDac s ≠ .suspend) :
    decodeDac (s.onSource src r) = Decoded.onSource src r (decodeDac s) := by
  unfold decodeDac at *
  exact State.buffered_onSource hx _ _ _ _ (fun l p =>
    Decoded.ofRead_onSource _ _ _ fun a => Decoded.commit_onSource { s with arith := _ } _ _) hs

theorem decodeDri_onSource {s : State} (hx : Extends s.source src) (hs : src = s.source ∨ decodeDri s ≠ .suspend) :
    decodeDri (s.onSource src r) = Decoded.onSource src r (decodeDri s) := by
  unfold decodeDri at *
  refine State.buffered_onSource hx _ _ _ _ (fun l p => ?_) hs
  split
  · exact Decoded.commit_onSource { s with restartInterval := _ } _ _
  · rfl

theorem decoderOf_onSource {i : Instr} {s : State} (hx : Extends s.source src)
    (hs : src = s.source ∨ decoderOf i s ≠ .suspend) :
    decoderOf i (s.onSource src r) = Decoded.onSource src r (decoderOf i s) := by
  cases i
  case dqt => exact decodeDqt_onSource hx hs
  case dht => exact decodeDht_onSource hx hs
  case dac => exact decodeDac_onSource hx hs
  case sos => exact decodeScanHeader_onSource hx hs
  case soi =>
    simp only [decoderOf, decodeSoi]
    show (if s.sawStartOfImage = true then _ else _) = _
    by_cases h : s.sawStartOfImage = true
    · rw [if_pos h, if_pos h]; rfl
    · rw [if_neg h, if_neg h]; rfl
  case dri => exact decodeDri_onSource hx hs
  case app0 =>
    simp only [decoderOf] at hs ⊢
    show (if s.config.app0 = true then _ else _) = _
    by_cases h : s.config.app0 = true
    · rw [if_pos h] at hs ⊢; rw [if_pos h]; exact decodeApp0_onSource hx hs
    · rw [if_neg h] at hs ⊢; rw [if_neg h]; exact skipVariable_onSource hx hs
  case app14 =>
    simp only [decoderOf] at hs ⊢
    show (if s.config.app14 = true then _ else _) = _
    by_cases h : s.config.app14 = true
    · rw [if_pos h] at hs ⊢; rw [if_pos h]; exact decodeApp14_onSource hx hs
    · rw [if_neg h] at hs ⊢; rw [if_neg h]; exact skipVariable_onSource hx hs
  all_goals first
    | exact decodeFrameHeader_onSource hx _ hs
    | exact skipVariable_onSource hx hs
    | rfl

end Sys2Proof.Machine
end

