-- ==== Sys2Proof/Laws/Operands.lean ====
section
/-! SUPPORT. The fields of the segment formats and their assembly (`30_encoding.md` R101 to R112, R122): each field reader undoes
its assembler, and the lengths the assembler produces. -/

namespace Sys2Proof.Machine

/-! ### Fields -/

theorem be16_halfBytes (h : Half) : be16 (h.extractLsb' 8 8) (h.extractLsb' 0 8) = h := by
  apply BitVec.eq_of_toNat_eq
  have := h.isLt
  rw [be16, BitVec.toNat_append, ← Nat.shiftLeft_add_eq_or_of_lt (BitVec.isLt _), Nat.shiftLeft_eq]
  simp only [BitVec.extractLsb'_toNat, Nat.shiftRight_eq_div_pow]
  omega

theorem halfBytes_be16 (a b : Byte) : halfBytes (be16 a b) = [a, b] := by
  simp only [halfBytes, be16, List.cons.injEq, and_true]
  exact ⟨BitVec.extractLsb'_append_eq_left, BitVec.extractLsb'_append_eq_right⟩

@[simp] theorem halfBytes_length (h : Half) : (halfBytes h).length = 2 := rfl

@[simp] theorem highNibble_pack (a b : Nibble) : highNibble (packNibbles a b) = a := BitVec.extractLsb'_append_eq_left

@[simp] theorem lowNibble_pack (a b : Nibble) : lowNibble (packNibbles a b) = b := BitVec.extractLsb'_append_eq_right

@[simp] theorem pack_high_low (b : Byte) : packNibbles (highNibble b) (lowNibble b) = b := by
  revert b; decide

theorem highNibble_toNat (b : Byte) : (highNibble b).toNat = b.toNat / 16 := by revert b; decide

theorem lowNibble_toNat (b : Byte) : (lowNibble b).toNat = b.toNat % 16 := by revert b; decide

/-- Widening a byte loses nothing. -/
theorem setWidth_widen (b : Byte) : (widen b).setWidth 8 = b := by revert b; decide

theorem widen_setWidth (q : Half) (h : q.toNat < 256) : widen (q.setWidth 8) = q := by
  apply BitVec.eq_of_toNat_eq
  simp only [widen, BitVec.toNat_setWidth]
  omega

theorem widen_toNat_lt (b : Byte) : (widen b).toNat < 256 := by
  simp only [widen, BitVec.toNat_setWidth]
  have := b.isLt; omega

/-! ### Header components -/

theorem frameComponents_encode (cs : List FrameComponent) : frameComponents (cs.flatMap encodeFrameComponent) = cs := by
  induction cs with
  | nil => rfl
  | cons c cs ih => simp [encodeFrameComponent, frameComponents, ih]

theorem encode_frameComponents (n : Nat) (bs : List Byte) (h : bs.length = 3 * n) :
    (frameComponents bs).flatMap encodeFrameComponent = bs ∧ (frameComponents bs).length = n := by
  induction n generalizing bs with
  | zero =>
    have : bs = [] := by simpa using h
    subst this; simp [frameComponents]
  | succ n ih =>
    match bs, h with
    | a :: b :: c :: rest, h =>
      have := ih rest (by simp at h; omega)
      simp [frameComponents, encodeFrameComponent, this]
    | [], h => simp at h
    | [_], h => simp at h; omega
    | [_, _], h => simp at h; omega

@[simp] theorem encodeFrameComponents_length (cs : List FrameComponent) :
    (cs.flatMap encodeFrameComponent).length = 3 * cs.length := by
  induction cs with
  | nil => rfl
  | cons c cs ih => simp [encodeFrameComponent, ih]; omega

@[simp] theorem encodeFrame_length (o : FrameOperands) : (encodeFrame o).length = 3 * o.components.length + 6 := by
  simp only [encodeFrame, List.length_cons, List.length_append, encodeFrameComponents_length, halfBytes_length]
  omega

theorem scanComponents_encode (cs : List ScanComponent) (rest : List Byte) :
    scanComponents cs.length (cs.flatMap encodeScanComponent ++ rest) = (cs, rest) := by
  induction cs with
  | nil => simp [scanComponents]
  | cons c cs ih => simp [encodeScanComponent, scanComponents, ih]

theorem encode_scanComponents (n : Nat) (bs : List Byte) (h : 2 * n ≤ bs.length) :
    (scanComponents n bs).1.flatMap encodeScanComponent ++ (scanComponents n bs).2 = bs ∧
      (scanComponents n bs).1.length = n := by
  induction n generalizing bs with
  | zero => simp [scanComponents]
  | succ n ih =>
    match bs, h with
    | a :: b :: rest, h =>
      have := ih rest (by simp at h; omega)
      simp [scanComponents, encodeScanComponent, this]
    | [], h => simp at h
    | [_], h => simp at h; omega

@[simp] theorem encodeScanComponents_length (cs : List ScanComponent) :
    (cs.flatMap encodeScanComponent).length = 2 * cs.length := by
  induction cs with
  | nil => rfl
  | cons c cs ih => simp [encodeScanComponent, ih]; omega

@[simp] theorem encodeScan_length (o : ScanOperands) : (encodeScan o).length = 2 * o.components.length + 4 := by
  simp only [encodeScan, List.length_cons, List.length_append, encodeScanComponents_length, List.length_nil]

/-! ### Coefficients -/

theorem halves_flatMap (qs : List Half) : halves (qs.flatMap halfBytes) = qs := by
  induction qs with
  | nil => rfl
  | cons q qs ih => simp [halfBytes, halves, be16_halfBytes, ih]

theorem flatMap_halves (n : Nat) (bs : List Byte) (h : bs.length = 2 * n) :
    (halves bs).flatMap halfBytes = bs ∧ (halves bs).length = n := by
  induction n generalizing bs with
  | zero =>
    have : bs = [] := by simpa using h
    subst this; simp [halves]
  | succ n ih =>
    match bs, h with
    | a :: b :: rest, h =>
      have := ih rest (by simp at h; omega)
      simp [halves, halfBytes_be16, this]
    | [], h => simp at h
    | [_], h => simp at h; omega

/-- The coefficients of a definition read back from their bytes. -/
theorem coefficients_encode (pq : Nibble) (qs : List Half) (h : pq = 0 → ∀ q ∈ qs, q.toNat < 256) :
    coefficients pq (qs.flatMap (encodeCoefficient pq)) = qs := by
  by_cases hp : pq = 0
  · subst hp
    have hs : ∀ qs : List Half, (∀ q ∈ qs, q.toNat < 256) →
        (qs.flatMap (encodeCoefficient 0)).map widen = qs := by
      intro qs
      induction qs with
      | nil => intro; rfl
      | cons q qs ih =>
        intro hq
        simp [encodeCoefficient, widen_setWidth q (hq q (by simp))]
        simpa [encodeCoefficient] using ih fun q' hq' => hq q' (by simp [hq'])
    simpa [coefficients] using hs qs (h rfl)
  · have : encodeCoefficient pq = halfBytes := by funext q; exact if_neg hp
    rw [this, coefficients, if_neg hp, halves_flatMap]

theorem encodeCoefficients_length (pq : Nibble) (qs : List Half) :
    (qs.flatMap (encodeCoefficient pq)).length = (if pq = 0 then 1 else 2) * qs.length := by
  induction qs with
  | nil => simp
  | cons q qs ih => simp only [List.flatMap_cons, List.length_append, ih, encodeCoefficient]; split <;> simp <;> omega

/-- The bytes of 64 coefficients, read and assembled again. -/
theorem encode_coefficients (pq : Nibble) (bs : List Byte) (h : bs.length = coefficientBytes pq) :
    (coefficients pq bs).flatMap (encodeCoefficient pq) = bs ∧ (coefficients pq bs).length = 64 ∧
      (pq = 0 → ∀ q ∈ coefficients pq bs, q.toNat < 256) := by
  by_cases hp : pq = 0
  · subst hp
    have hs : ∀ bs : List Byte, (bs.map widen).flatMap (encodeCoefficient 0) = bs := by
      intro bs; induction bs with
      | nil => rfl
      | cons b bs ih => simpa [encodeCoefficient, setWidth_widen] using ih
    have h64 : bs.length = 64 := by simpa [coefficientBytes] using h
    refine ⟨by simpa [coefficients] using hs bs, by simpa [coefficients] using h64, fun _ q hq => ?_⟩
    obtain ⟨b, -, rfl⟩ := List.mem_map.1 (by simpa [coefficients] using hq)
    exact widen_toNat_lt b
  · have he : encodeCoefficient pq = halfBytes := by funext q; exact if_neg hp
    have h128 : bs.length = 128 := by rw [h, coefficientBytes, if_neg hp]
    obtain ⟨h1, h2⟩ := flatMap_halves 64 bs h128
    rw [he, coefficients, if_neg hp]
    exact ⟨h1, h2, fun h0 => absurd h0 hp⟩

@[simp] theorem encodeDacEntries_length (es : List DacEntry) : (es.flatMap encodeDacEntry).length = 2 * es.length := by
  induction es with
  | nil => rfl
  | cons e es ih => simp [encodeDacEntry, ih]; omega

/-! ### The bound on the number of definitions -/

/-- Any two bounds that are at least the payload's length read the same definitions. -/
theorem readQuantDefs_fuel (length : Half) (p : List Byte) (n m : Nat) (hn : p.length ≤ n) (hm : p.length ≤ m) :
    readQuantDefs length n p = readQuantDefs length m p := by
  induction n generalizing p m with
  | zero =>
    have : p = [] := by simpa using hn
    subst this; cases m <;> rfl
  | succ n ih =>
    cases p with
    | nil => cases m <;> rfl
    | cons b rest =>
      obtain ⟨m, rfl⟩ : ∃ k, m = k + 1 := ⟨m - 1, by simp at hm; omega⟩
      simp only [List.length_cons] at hn hm
      have : (rest.drop (coefficientBytes (highNibble b))).length ≤ rest.length := by simp
      simp only [readQuantDefs]
      rw [ih _ m (by omega) (by omega)]

/-- The same of Huffman definitions. -/
theorem readHuffDefs_fuel (length : Half) (p : List Byte) (n m : Nat) (hn : p.length ≤ n) (hm : p.length ≤ m) :
    readHuffDefs length n p = readHuffDefs length m p := by
  induction n generalizing p m with
  | zero =>
    have : p = [] := by simpa using hn
    subst this; cases m <;> rfl
  | succ n ih =>
    cases p with
    | nil => cases m <;> rfl
    | cons b rest =>
      obtain ⟨m, rfl⟩ : ∃ k, m = k + 1 := ⟨m - 1, by simp at hm; omega⟩
      simp only [List.length_cons] at hn hm
      have : (rest.drop (16 + countSymbols (rest.take 16))).length ≤ rest.length := by simp
      simp only [readHuffDefs]
      rw [ih _ m (by omega) (by omega)]

end Sys2Proof.Machine
end

