-- ==== Sys2Proof/Laws/PerInstr.lean ====
section
/-! SUPPORT. Statements about every instruction as syntax, one lemma per constructor (`30_encoding.md` R113, R120). -/

namespace Sys2Proof.Laws

/-- The word of a well-formed instruction decodes to it. -/
abbrev CodeRoundTrip.Statement (i : Instr) : Prop := i.wf → decodeWord (encode i) = some i

theorem CodeRoundTrip.stuff : CodeRoundTrip.Statement .stuff := fun _ => by decide
theorem CodeRoundTrip.fill : CodeRoundTrip.Statement .fill := fun _ => by decide
theorem CodeRoundTrip.tem : CodeRoundTrip.Statement .tem := fun _ => by decide
theorem CodeRoundTrip.res (code : Byte) : CodeRoundTrip.Statement (.res code) := fun h => by
  have hc : decodeCode code = .res code := (decodeCode_res_iff code).2 h
  have hb : markerBytes (introducer ++ code) = [introducer, code] := markerBytes_append introducer code
  simp [decodeWord, encode, hb, decode, hc, Except.toOption]
theorem CodeRoundTrip.sof0 : CodeRoundTrip.Statement .sof0 := fun _ => by decide
theorem CodeRoundTrip.sof1 : CodeRoundTrip.Statement .sof1 := fun _ => by decide
theorem CodeRoundTrip.sof2 : CodeRoundTrip.Statement .sof2 := fun _ => by decide
theorem CodeRoundTrip.sof3 : CodeRoundTrip.Statement .sof3 := fun _ => by decide
theorem CodeRoundTrip.dht : CodeRoundTrip.Statement .dht := fun _ => by decide
theorem CodeRoundTrip.sof5 : CodeRoundTrip.Statement .sof5 := fun _ => by decide
theorem CodeRoundTrip.sof6 : CodeRoundTrip.Statement .sof6 := fun _ => by decide
theorem CodeRoundTrip.sof7 : CodeRoundTrip.Statement .sof7 := fun _ => by decide
theorem CodeRoundTrip.jpg : CodeRoundTrip.Statement .jpg := fun _ => by decide
theorem CodeRoundTrip.sof9 : CodeRoundTrip.Statement .sof9 := fun _ => by decide
theorem CodeRoundTrip.sof10 : CodeRoundTrip.Statement .sof10 := fun _ => by decide
theorem CodeRoundTrip.sof11 : CodeRoundTrip.Statement .sof11 := fun _ => by decide
theorem CodeRoundTrip.dac : CodeRoundTrip.Statement .dac := fun _ => by decide
theorem CodeRoundTrip.sof13 : CodeRoundTrip.Statement .sof13 := fun _ => by decide
theorem CodeRoundTrip.sof14 : CodeRoundTrip.Statement .sof14 := fun _ => by decide
theorem CodeRoundTrip.sof15 : CodeRoundTrip.Statement .sof15 := fun _ => by decide
theorem CodeRoundTrip.rst0 : CodeRoundTrip.Statement .rst0 := fun _ => by decide
theorem CodeRoundTrip.rst1 : CodeRoundTrip.Statement .rst1 := fun _ => by decide
theorem CodeRoundTrip.rst2 : CodeRoundTrip.Statement .rst2 := fun _ => by decide
theorem CodeRoundTrip.rst3 : CodeRoundTrip.Statement .rst3 := fun _ => by decide
theorem CodeRoundTrip.rst4 : CodeRoundTrip.Statement .rst4 := fun _ => by decide
theorem CodeRoundTrip.rst5 : CodeRoundTrip.Statement .rst5 := fun _ => by decide
theorem CodeRoundTrip.rst6 : CodeRoundTrip.Statement .rst6 := fun _ => by decide
theorem CodeRoundTrip.rst7 : CodeRoundTrip.Statement .rst7 := fun _ => by decide
theorem CodeRoundTrip.soi : CodeRoundTrip.Statement .soi := fun _ => by decide
theorem CodeRoundTrip.eoi : CodeRoundTrip.Statement .eoi := fun _ => by decide
theorem CodeRoundTrip.sos : CodeRoundTrip.Statement .sos := fun _ => by decide
theorem CodeRoundTrip.dqt : CodeRoundTrip.Statement .dqt := fun _ => by decide
theorem CodeRoundTrip.dnl : CodeRoundTrip.Statement .dnl := fun _ => by decide
theorem CodeRoundTrip.dri : CodeRoundTrip.Statement .dri := fun _ => by decide
theorem CodeRoundTrip.dhp : CodeRoundTrip.Statement .dhp := fun _ => by decide
theorem CodeRoundTrip.exp : CodeRoundTrip.Statement .exp := fun _ => by decide
theorem CodeRoundTrip.app0 : CodeRoundTrip.Statement .app0 := fun _ => by decide
theorem CodeRoundTrip.app1 : CodeRoundTrip.Statement .app1 := fun _ => by decide
theorem CodeRoundTrip.app2 : CodeRoundTrip.Statement .app2 := fun _ => by decide
theorem CodeRoundTrip.app3 : CodeRoundTrip.Statement .app3 := fun _ => by decide
theorem CodeRoundTrip.app4 : CodeRoundTrip.Statement .app4 := fun _ => by decide
theorem CodeRoundTrip.app5 : CodeRoundTrip.Statement .app5 := fun _ => by decide
theorem CodeRoundTrip.app6 : CodeRoundTrip.Statement .app6 := fun _ => by decide
theorem CodeRoundTrip.app7 : CodeRoundTrip.Statement .app7 := fun _ => by decide
theorem CodeRoundTrip.app8 : CodeRoundTrip.Statement .app8 := fun _ => by decide
theorem CodeRoundTrip.app9 : CodeRoundTrip.Statement .app9 := fun _ => by decide
theorem CodeRoundTrip.app10 : CodeRoundTrip.Statement .app10 := fun _ => by decide
theorem CodeRoundTrip.app11 : CodeRoundTrip.Statement .app11 := fun _ => by decide
theorem CodeRoundTrip.app12 : CodeRoundTrip.Statement .app12 := fun _ => by decide
theorem CodeRoundTrip.app13 : CodeRoundTrip.Statement .app13 := fun _ => by decide
theorem CodeRoundTrip.app14 : CodeRoundTrip.Statement .app14 := fun _ => by decide
theorem CodeRoundTrip.app15 : CodeRoundTrip.Statement .app15 := fun _ => by decide
theorem CodeRoundTrip.jpg0 : CodeRoundTrip.Statement .jpg0 := fun _ => by decide
theorem CodeRoundTrip.jpg1 : CodeRoundTrip.Statement .jpg1 := fun _ => by decide
theorem CodeRoundTrip.jpg2 : CodeRoundTrip.Statement .jpg2 := fun _ => by decide
theorem CodeRoundTrip.jpg3 : CodeRoundTrip.Statement .jpg3 := fun _ => by decide
theorem CodeRoundTrip.jpg4 : CodeRoundTrip.Statement .jpg4 := fun _ => by decide
theorem CodeRoundTrip.jpg5 : CodeRoundTrip.Statement .jpg5 := fun _ => by decide
theorem CodeRoundTrip.jpg6 : CodeRoundTrip.Statement .jpg6 := fun _ => by decide
theorem CodeRoundTrip.jpg7 : CodeRoundTrip.Statement .jpg7 := fun _ => by decide
theorem CodeRoundTrip.jpg8 : CodeRoundTrip.Statement .jpg8 := fun _ => by decide
theorem CodeRoundTrip.jpg9 : CodeRoundTrip.Statement .jpg9 := fun _ => by decide
theorem CodeRoundTrip.jpg10 : CodeRoundTrip.Statement .jpg10 := fun _ => by decide
theorem CodeRoundTrip.jpg11 : CodeRoundTrip.Statement .jpg11 := fun _ => by decide
theorem CodeRoundTrip.jpg12 : CodeRoundTrip.Statement .jpg12 := fun _ => by decide
theorem CodeRoundTrip.jpg13 : CodeRoundTrip.Statement .jpg13 := fun _ => by decide
theorem CodeRoundTrip.com : CodeRoundTrip.Statement .com := fun _ => by decide
theorem CodeRoundTrip.nop : CodeRoundTrip.Statement .nop := fun _ => by decide
theorem CodeRoundTrip.resetStream : CodeRoundTrip.Statement .resetStream := fun _ => by decide
theorem CodeRoundTrip.readMarkers : CodeRoundTrip.Statement .readMarkers := fun _ => by decide
theorem CodeRoundTrip.readRestartMarker : CodeRoundTrip.Statement .readRestartMarker := fun _ => by decide

end Sys2Proof.Laws
end

