-- ==== Sys2Proof/Laws/Query.lean ====
section
/-! SUPPORT. What a query answers (`10_state.md` R21, R42, R46), said once for the queries of all elements. -/

namespace Sys2Proof.Machine

@[simp] theorem State.query_idle {s : State} (h : s.activity = .idle) (e : Element) : s.query e = s.read e :=
  if_pos (.inl h)

@[simp] theorem State.query_events (s : State) : s.query .events = .ok (.log s.events) := if_pos (.inr rfl)

theorem State.query_running {s : State} (h : s.activity ≠ .idle) {e : Element} (he : e ≠ .events) :
    s.query e = .error .commandWhileRunning := if_neg (by simp [h, he])

@[simp] theorem guarded_eq_ok {guard : Bool} {v r : Reading} : guarded guard v = .ok r ↔ guard = true ∧ v = r := by
  unfold guarded; split <;> simp_all

@[simp] theorem entry_eq_ok {guard : Bool} {v : Option Nat} {r : Reading} :
    entry guard v = .ok r ↔ guard = true ∧ v.map Reading.number = some r := by
  unfold entry; cases v <;> simp

end Sys2Proof.Machine
end

