-- ==== Sys2Proof/Laws/Step.lean ====
section
/-! SUPPORT. What a step can do, once for all later proofs: one inversion lemma for an idle core, one for READ_MARKERS in
progress, one for READ_RESTART_MARKER in progress (`44_marker_reader.md` R281, `45_restart_resync.md` R320 to R323). -/

namespace Sys2Proof.Machine

/-- Every code but the two escapes is a marker READ_MARKERS dispatches. -/
theorem decodeCode_isMarker {code : Byte} (h0 : code ≠ 0) (hf : code ≠ 0xFF) : isMarker (decodeCode code) = true := by
  revert h0 hf; revert code; decide

theorem introducer_eq : introducer = 0xFF := rfl

/-! ### The commands -/

theorem execNop_next {s t : State} : exec .nop s = .next t ↔ s.activity = .idle ∧ t = s.finish .idle := by
  show s.whenIdle _ = _ ↔ _
  rw [State.whenIdle_next]; simp [eq_comm]

theorem execResetStream_next {s t : State} :
    exec .resetStream s = .next t ↔ s.activity = .idle ∧ t = s.resetStream.finish .resetDone := by
  show s.whenIdle _ = _ ↔ _
  rw [State.whenIdle_next]; simp [eq_comm]

theorem execReadMarkers_next {s t : State} :
    exec .readMarkers s = .next t ↔
      s.activity = .idle ∧
        (s.latch.fatal = true ∧ t = s.finish .fatalError ∨
          s.latch.fatal = false ∧ t = { s with activity := .reading 0 }) := by
  show s.whenIdle _ = _ ↔ _
  rw [State.whenIdle_next]
  cases hf : s.latch.fatal <;> simp [eq_comm]

/-- One turn of `Resync`'s loop (R321 to R325). -/
theorem State.resyncTurn_next {s t : State} :
    s.resyncTurn = .next t ↔
      (classify s.pendingMarker s.nextRestartIndex = .scanForward ∧
          t = { s with activity := .restarting .resyncing 0 }) ∨
      (classify s.pendingMarker s.nextRestartIndex = .leave ∧ t = s.restartOk) ∨
      (classify s.pendingMarker s.nextRestartIndex = .discard ∧ t = { s with pendingMarker := 0 }.restartOk) := by
  unfold State.resyncTurn
  cases hc : classify s.pendingMarker s.nextRestartIndex <;> simp [eq_comm]

theorem State.resyncTurn_is_next (s : State) : ∃ t, s.resyncTurn = .next t := by
  unfold State.resyncTurn; split <;> exact ⟨_, rfl⟩

/-- A pending marker is settled: consumed, or given to `Resync` behind the diagnostic (R320, R326). -/
theorem State.settleRestart_next {s t : State} :
    s.settleRestart = .next t ↔
      (s.pendingMarker = restartCode s.nextRestartIndex ∧ t = { s with pendingMarker := 0 }.restartOk) ∨
      (s.pendingMarker ≠ restartCode s.nextRestartIndex ∧
        (s.emit .mustResync (s.pendingMarker.setWidth 32) (s.nextRestartIndex.setWidth 32)).resyncTurn = .next t) := by
  unfold State.settleRestart
  by_cases h : s.pendingMarker = restartCode s.nextRestartIndex
  · rw [if_pos h]; simp only [h, Host.Outcome.next.injEq, ne_eq, not_true, false_and, or_false, true_and, eq_comm]
  · rw [if_neg h]; simp only [h, false_and, false_or, ne_eq, not_false_eq_true, true_and]; rfl

theorem State.settleRestart_is_next (s : State) : ∃ t, s.settleRestart = .next t := by
  unfold State.settleRestart
  split
  · exact ⟨_, rfl⟩
  · exact State.resyncTurn_is_next _

theorem execReadRestartMarker_next {s t : State} :
    exec .readRestartMarker s = .next t ↔
      s.activity = .idle ∧
        ((s.latch.fatal = true ∧ t = s.finish .fatalError) ∨
         (s.latch.fatal = false ∧ s.rstate = .inScan ∧ s.pendingMarker = 0 ∧
            t = { s with activity := .restarting .seeking 0 }) ∨
         (s.latch.fatal = false ∧ s.rstate = .inScan ∧ s.pendingMarker ≠ 0 ∧ s.settleRestart = .next t)) := by
  show s.whenIdle _ = _ ↔ _
  rw [State.whenIdle_next]
  refine and_congr_right fun _ => ?_
  by_cases hf : s.latch.fatal = true
  · rw [if_pos hf]
    constructor
    · intro h; exact .inl ⟨hf, (Host.Outcome.next.inj h).symm⟩
    · rintro (⟨-, rfl⟩ | ⟨h, -⟩ | ⟨h, -⟩)
      · rfl
      · rw [hf] at h; cases h
      · rw [hf] at h; cases h
  · have hf' : s.latch.fatal = false := by simpa using hf
    rw [if_neg hf]
    by_cases hr : s.rstate = .inScan
    · rw [if_pos hr]
      by_cases hp : s.pendingMarker = 0
      · rw [if_neg (by simp [State.hasPending, hp])]
        constructor
        · intro h; exact .inr (.inl ⟨hf', hr, hp, (Host.Outcome.next.inj h).symm⟩)
        · rintro (⟨h, -⟩ | ⟨-, -, -, rfl⟩ | ⟨-, -, h, -⟩)
          · exact absurd h hf
          · rfl
          · exact absurd hp h
      · rw [if_pos (show s.hasPending = true from bne_iff_ne.2 hp)]
        constructor
        · intro h; exact .inr (.inr ⟨hf', hr, hp, h⟩)
        · rintro (⟨h, -⟩ | ⟨-, -, h, -⟩ | ⟨-, -, -, h⟩)
          · exact absurd h hf
          · exact absurd h hp
          · exact h
    · rw [if_neg hr]
      constructor
      · intro h; cases h
      · rintro (⟨h, -⟩ | ⟨-, h, -⟩ | ⟨-, h, -⟩)
        · exact absurd h hf
        · exact absurd h hr
        · exact absurd h hr

/-! ### Escapes -/

theorem execFill_next {s t : State} : exec .fill s = .next t ↔ t = { s with activity := s.activity.swallow } := by
  show Host.Outcome.next _ = _ ↔ _
  simp [eq_comm]

theorem execStuff_next {s t : State} :
    exec .stuff s = .next t ↔
      s.pos.toNat + (s.activity.run + 2) < 2 ^ 64 ∧
      t = { s with
              discardedByteCount := sat32Add s.discardedByteCount 2
              activity := s.activity.rewind
              pos := BitVec.ofNat 64 (s.pos.toNat + (s.activity.run + 2)) } :=
  State.discard_next

/-! ### The scanner's look -/

theorem State.behindRun_pair {s : State} {run : Nat} {code : Byte} :
    s.behindRun run = .pair code ↔ s.source.peek (s.pos.toNat + run + 1) = some code := by
  unfold State.behindRun; split <;> simp_all

theorem State.behindRun_starved {s : State} {run : Nat} :
    s.behindRun run = .starved ↔ s.source.peek (s.pos.toNat + run + 1) = none := by
  unfold State.behindRun; split <;> simp_all

theorem State.behindRun_ne_garbage (s : State) (run : Nat) : s.behindRun run ≠ .garbage := by
  unfold State.behindRun; split <;> simp

/-- The scanner sees an introducer with a byte behind its run. -/
theorem State.token_pair {s : State} {run : Nat} {code : Byte} :
    s.token run = .pair code ↔
      (run = 0 → s.source.peek s.pos.toNat = some introducer) ∧
        s.source.peek (s.pos.toNat + run + 1) = some code := by
  unfold State.token
  by_cases hr : run = 0
  · rw [if_pos hr]
    cases hp : s.source.peek s.pos.toNat with
    | none => simp [hr]
    | some b =>
      by_cases hb : b = introducer
      · simp only [hb, if_true, State.behindRun_pair, hr, forall_const, true_and]
      · simp [hb, hr]
  · rw [if_neg hr, State.behindRun_pair]; simp [hr]

theorem State.token_garbage {s : State} {run : Nat} :
    s.token run = .garbage ↔ run = 0 ∧ ∃ b, s.source.peek s.pos.toNat = some b ∧ b ≠ introducer := by
  unfold State.token
  by_cases hr : run = 0
  · rw [if_pos hr]
    cases hp : s.source.peek s.pos.toNat with
    | none => simp
    | some b =>
      by_cases hb : b = introducer
      · simp [hb, State.behindRun_ne_garbage]
      · simp [hb, hr]
  · rw [if_neg hr]; simp [hr, State.behindRun_ne_garbage]

theorem State.token_starved {s : State} {run : Nat} :
    s.token run = .starved ↔
      (run = 0 ∧ s.source.peek s.pos.toNat = none) ∨
      ((run = 0 → s.source.peek s.pos.toNat = some introducer) ∧ s.source.peek (s.pos.toNat + run + 1) = none) := by
  unfold State.token
  by_cases hr : run = 0
  · rw [if_pos hr]
    cases hp : s.source.peek s.pos.toNat with
    | none => simp [hr]
    | some b =>
      by_cases hb : b = introducer
      · simp only [hb, if_true, State.behindRun_starved, hr, forall_const, true_and, reduceCtorEq, false_or,
          and_false]
      · simp [hb, hr]
  · rw [if_neg hr, State.behindRun_starved]; simp [hr]

theorem State.firstLook_cases (s : State) :
    (s.firstLook = .starved ∧ s.source.avail < s.pos.toNat + 2) ∨
    (s.pos.toNat + 2 ≤ s.source.avail ∧ ∃ c1 c2,
      c1 = Memory.read s.source.bytes s.pos.toNat ∧ c2 = Memory.read s.source.bytes (s.pos.toNat + 1) ∧
      ((c1 = introducer ∧ c2 = startOfImageCode ∧ s.firstLook = .found) ∨
       (¬(c1 = introducer ∧ c2 = startOfImageCode) ∧ s.firstLook = .wrong c1 c2))) := by
  by_cases h : s.pos.toNat + 2 ≤ s.source.avail
  · refine .inr ⟨h, _, _, rfl, rfl, ?_⟩
    simp only [State.firstLook, ByteSource.has_of_le h, if_true]
    by_cases hc : Memory.read s.source.bytes s.pos.toNat = introducer ∧
        Memory.read s.source.bytes (s.pos.toNat + 1) = startOfImageCode
    · exact .inl ⟨hc.1, hc.2, if_pos hc⟩
    · exact .inr ⟨hc, if_neg hc⟩
  · have hlt : s.source.avail < s.pos.toNat + 2 := by omega
    exact .inl ⟨by rw [State.firstLook, ByteSource.has_of_lt hlt]; rfl, hlt⟩

/-! ### Steps -/

theorem step_of_instr {s s' : State} {i : Instr} (h : fetch s = .instr i s') : step s = exec i s' := by
  simp [step, h]

theorem step_of_settled {s : State} {o : StepOutcome} (h : fetch s = .settled o) : step s = o := by
  simp [step, h]

/-- A step of an idle core that answers a next state. -/
theorem step_idle {s t : State} (ha : s.activity = .idle) (h : step s = .next t) :
    (s.inputs = [] ∧ t = s) ∨
    (∃ code rest, s.inputs = .command code :: rest ∧
      exec (decodeCommand code) { s with inputs := rest } = .next t) ∨
    (∃ bs rest, s.inputs = .fill bs :: rest ∧ t = { s with inputs := rest }.fill bs) ∨
    (∃ n rest, s.inputs = .account n :: rest ∧ s.source.avail + n ≤ s.pos.toNat ∧
      t = { s with inputs := rest, source := { s.source with avail := s.source.avail + n } }) ∨
    (∃ rest, s.inputs = .endOfData :: rest ∧ t = { s with inputs := rest }.endOfData) ∨
    (∃ n rest, s.inputs = .consume n :: rest ∧ s.entropyMayAct = true ∧ s.pos.toNat + n ≤ s.source.avail ∧
      s.pos.toNat + n < 2 ^ 64 ∧
      t = { s with inputs := rest, pos := BitVec.ofNat 64 (s.pos.toNat + n) }) ∨
    (∃ code rest, s.inputs = .handOver code :: rest ∧ s.entropyMayAct = true ∧ s.pendingMarker = 0 ∧ code ≠ 0 ∧
      code ≠ 0xFF ∧ t = { s with inputs := rest, pendingMarker := code }) ∨
    (∃ v rest, s.inputs = .setColorSpace v :: rest ∧ t = { s with inputs := rest, colorSpace := v }) := by
  have hf : fetch s = fetchInput s s.inputs := by simp [fetch, ha]
  cases hi : s.inputs with
  | nil =>
    rw [hi] at hf
    rw [step_of_settled hf] at h
    exact .inl ⟨rfl, (Host.Outcome.next.inj h).symm⟩
  | cons inp rest =>
    rw [hi] at hf
    refine .inr ?_
    cases inp with
    | command code =>
      rw [step_of_instr hf] at h
      exact .inl ⟨code, rest, rfl, h⟩
    | fill bs =>
      rw [step_of_settled hf] at h
      exact .inr (.inl ⟨bs, rest, rfl, (Host.Outcome.next.inj h).symm⟩)
    | account n =>
      rw [step_of_settled hf, State.account] at h
      split at h
      · exact .inr (.inr (.inl ⟨n, rest, rfl, ‹_›, (Host.Outcome.next.inj h).symm⟩))
      · cases h
    | endOfData =>
      rw [step_of_settled hf] at h
      exact .inr (.inr (.inr (.inl ⟨rest, rfl, (Host.Outcome.next.inj h).symm⟩)))
    | consume n =>
      rw [step_of_settled hf, State.consume] at h
      split at h
      · rename_i hc
        rw [Bool.and_eq_true, decide_eq_true_eq] at hc
        obtain ⟨hroom, ht⟩ := State.advance_some.1 (orOverflow_next.1 h)
        exact .inr (.inr (.inr (.inr (.inl ⟨n, rest, rfl, hc.1, hc.2, hroom, ht⟩))))
      · cases h
    | handOver code =>
      rw [step_of_settled hf, State.handOver] at h
      split at h
      · rename_i hc
        simp only [Bool.and_eq_true, beq_iff_eq, isMarkerCode, bne_iff_ne] at hc
        exact .inr (.inr (.inr (.inr (.inr (.inl
          ⟨code, rest, rfl, hc.1.1, hc.1.2, hc.2.1, hc.2.2, (Host.Outcome.next.inj h).symm⟩)))))
      · cases h
    | setColorSpace v =>
      rw [step_of_settled hf] at h
      exact .inr (.inr (.inr (.inr (.inr (.inr ⟨v, rest, rfl, (Host.Outcome.next.inj h).symm⟩)))))

/-- What one step of READ_MARKERS in progress runs. -/
inductive ReadTurn (s : State) (run : Nat) : StepOutcome → Prop
  | starved (hp : s.pendingMarker = 0)
      (h : s.rstate = .awaitingStartOfImage ∧ s.source.avail < s.pos.toNat + 2 ∨
        s.rstate ≠ .awaitingStartOfImage ∧ s.token run = .starved) : ReadTurn s run (.next s.suspend)
  | wrong {c1 c2 : Byte} (hp : s.pendingMarker = 0) (hr : s.rstate = .awaitingStartOfImage)
      (h : s.firstLook = .wrong c1 c2) (hav : s.pos.toNat + 2 ≤ s.source.avail) :
      ReadTurn s run (.next (s.raiseFatal (fatalError .noStartOfImage (widen c1) (widen c2))))
  | first {u : State} (hp : s.pendingMarker = 0) (hr : s.rstate = .awaitingStartOfImage) (h : s.firstLook = .found)
      (hav : s.pos.toNat + 2 ≤ s.source.avail) (hu : s.acquireFirst = some u) (fetched : fetch s = .instr .soi u) :
      ReadTurn s run (exec .soi u)
  | pending (h0 : s.pendingMarker ≠ 0) (hf : s.pendingMarker ≠ 0xFF)
      (fetched : fetch s = .instr (decodeCode s.pendingMarker) s) :
      ReadTurn s run (exec (decodeCode s.pendingMarker) s)
  | stuck (h : s.pendingMarker = 0xFF) : ReadTurn s run (.fault .pendingNotAMarker)
  | garbage (hp : s.pendingMarker = 0) (hr : s.rstate ≠ .awaitingStartOfImage) (h : s.token run = .garbage) :
      ReadTurn s run s.discardGarbage
  | fill (hp : s.pendingMarker = 0) (hr : s.rstate ≠ .awaitingStartOfImage) (h : s.token run = .pair 0xFF) :
      ReadTurn s run (exec .fill s)
  | stuff (hp : s.pendingMarker = 0) (hr : s.rstate ≠ .awaitingStartOfImage) (h : s.token run = .pair 0) :
      ReadTurn s run (exec .stuff s)
  | marker {code : Byte} {u : State} (hp : s.pendingMarker = 0) (hr : s.rstate ≠ .awaitingStartOfImage)
      (h : s.token run = .pair code) (h0 : code ≠ 0) (hf : code ≠ 0xFF) (hu : s.acquire code = some u)
      (fetched : fetch s = .instr (decodeCode code) u) : ReadTurn s run (exec (decodeCode code) u)
  | overflow (h : s.acquireFirst = none ∧ s.pos.toNat + 2 ≤ s.source.avail ∨
        ∃ code, s.token run = .pair code ∧ s.acquire code = none) :
      ReadTurn s run (.refused .positionOverflow)

/-- A step of READ_MARKERS in progress is one of the listed turns. -/
theorem step_reading {s : State} {run : Nat} (ha : s.activity = .reading run) : ReadTurn s run (step s) := by
  have hf : fetch s = fetchMarker s run := by simp [fetch, ha]
  unfold fetchMarker at hf
  by_cases hp : s.pendingMarker = 0
  · have hh : ¬s.hasPending = true := by simp [State.hasPending, hp]
    rw [if_neg hh] at hf
    by_cases hr : s.rstate = .awaitingStartOfImage
    · rw [if_pos hr, fetchFirst] at hf
      rcases s.firstLook_cases with ⟨hl, hav⟩ | ⟨hav, c1, c2, -, -, ⟨-, -, hl⟩ | ⟨-, hl⟩⟩
      · rw [hl] at hf; rw [step_of_settled hf]; exact .starved hp (.inl ⟨hr, hav⟩)
      · rw [hl] at hf
        cases hu : s.acquireFirst with
        | none => rw [hu] at hf; rw [step_of_settled hf]; exact .overflow (.inl ⟨hu, hav⟩)
        | some u => rw [hu] at hf; rw [step_of_instr hf]; exact .first hp hr hl hav hu hf
      · rw [hl] at hf; rw [step_of_settled hf]; exact .wrong hp hr hl hav
    · rw [if_neg hr, fetchNext] at hf
      cases ht : s.token run with
      | starved => rw [ht] at hf; rw [step_of_settled hf]; exact .starved hp (.inr ⟨hr, ht⟩)
      | garbage => rw [ht] at hf; rw [step_of_settled hf]; exact .garbage hp hr ht
      | pair code =>
        rw [ht] at hf
        simp only [fetchPair] at hf
        by_cases h1 : code = introducer
        · rw [if_pos (.inl h1)] at hf
          rw [step_of_instr hf, h1]; exact .fill hp hr (by rw [ht, h1]; rfl)
        · by_cases h0 : code = 0
          · rw [if_pos (.inr h0)] at hf
            rw [step_of_instr hf, h0]; exact .stuff hp hr (h0 ▸ ht)
          · rw [if_neg (by tauto)] at hf
            cases hu : s.acquire code with
            | none => rw [hu] at hf; rw [step_of_settled hf]; exact .overflow (.inr ⟨code, ht, hu⟩)
            | some u => rw [hu] at hf; rw [step_of_instr hf]; exact .marker hp hr ht h0 h1 hu hf
  · have hh : s.hasPending = true := bne_iff_ne.2 hp
    rw [if_pos hh, fetchPending] at hf
    by_cases h1 : s.pendingMarker = introducer
    · rw [if_pos h1] at hf; rw [step_of_settled hf]; exact .stuck h1
    · rw [if_neg h1] at hf; rw [step_of_instr hf]; exact .pending hp h1 hf

/-- What one step of READ_RESTART_MARKER in progress runs. -/
inductive RestartTurn (s : State) (phase : RestartPhase) (run : Nat) : StepOutcome → Prop
  | starved (h : s.token run = .starved) : RestartTurn s phase run (.next s.suspend)
  | garbage (h : s.token run = .garbage) : RestartTurn s phase run s.discardGarbage
  | fill (h : s.token run = .pair 0xFF) : RestartTurn s phase run (exec .fill s)
  | stuff (h : s.token run = .pair 0) : RestartTurn s phase run (exec .stuff s)
  | marker {code : Byte} {u : State} (h : s.token run = .pair code) (h0 : code ≠ 0) (hf : code ≠ 0xFF)
      (hu : s.acquire code = some u) : RestartTurn s phase run (u.restartFound phase)
  | overflow {code : Byte} (h : s.token run = .pair code) (hu : s.acquire code = none) :
      RestartTurn s phase run (.refused .positionOverflow)

/-- A step of READ_RESTART_MARKER in progress is one of the listed turns. -/
theorem step_restarting {s : State} {phase : RestartPhase} {run : Nat} (ha : s.activity = .restarting phase run) :
    RestartTurn s phase run (step s) := by
  have hf : fetch s = fetchRestart s phase run := by simp [fetch, ha]
  unfold fetchRestart at hf
  cases ht : s.token run with
  | starved => rw [ht] at hf; rw [step_of_settled hf]; exact .starved ht
  | garbage => rw [ht] at hf; rw [step_of_settled hf]; exact .garbage ht
  | pair code =>
    rw [ht] at hf
    simp only at hf
    by_cases h1 : code = introducer
    · rw [if_pos (.inl h1)] at hf
      rw [step_of_instr hf, h1]; exact .fill (by rw [ht, h1]; rfl)
    · by_cases h0 : code = 0
      · rw [if_pos (.inr h0)] at hf
        rw [step_of_instr hf, h0]; exact .stuff (h0 ▸ ht)
      · rw [if_neg (by tauto)] at hf
        cases hu : s.acquire code with
        | none => rw [hu] at hf; rw [step_of_settled hf]; exact .overflow ht hu
        | some u => rw [hu] at hf; rw [step_of_settled hf]; exact .marker ht h0 h1 hu

/-! ### Steps of a running command that answer a next state -/

/-- `u` is `s` with a marker acquired: at once the pending one, or one that the scanner or `FirstMarker` has just found. -/
structure Acquired (s u : State) : Prop where
  frame : u = { s with
    events := u.events, discardedByteCount := u.discardedByteCount, pendingMarker := u.pendingMarker
    activity := u.activity, pos := u.pos }
  forward : s.pos.toNat ≤ u.pos.toNat
  log : s.events <+: u.events
  some : u.pendingMarker ≠ 0
  legal : u.pendingMarker ≠ 0xFF
  phase : u = s ∨ u.activity = s.activity.rewind

theorem State.acquire_acquired {s u : State} {code : Byte} (h0 : code ≠ 0) (hf : code ≠ 0xFF)
    (h : s.acquire code = some u) : Acquired s u := by
  obtain ⟨hroom, rfl⟩ := State.acquire_some.1 h
  refine ⟨rfl, ?_, ?_, h0, hf, .inr rfl⟩
  · rw [toNat_ofNat_pos hroom]; omega
  · rw [State.warnExtraneous_events]; exact List.prefix_append _ _

theorem State.acquireFirst_acquired {s u : State} (h : s.acquireFirst = some u) : Acquired s u := by
  obtain ⟨hroom, rfl⟩ := State.acquireFirst_some.1 h
  refine ⟨rfl, ?_, List.prefix_rfl, by simp [startOfImageCode], by simp [startOfImageCode], .inr rfl⟩
  rw [toNat_ofNat_pos hroom]; omega

theorem Acquired.refl {s : State} (h0 : s.pendingMarker ≠ 0) (hf : s.pendingMarker ≠ 0xFF) : Acquired s s :=
  ⟨rfl, le_refl _, List.prefix_rfl, h0, hf, .inl rfl⟩

/-- What a step of READ_MARKERS leaves, when it answers a next state. -/
inductive ReadNext (s : State) (run : Nat) : State → Prop
  | suspended (hp : s.pendingMarker = 0) : ReadNext s run s.suspend
  | wrong (f : FatalError) (hp : s.pendingMarker = 0) (hr : s.rstate = .awaitingStartOfImage)
      (cause : f.cause = .noStartOfImage) : ReadNext s run (s.raiseFatal f)
  | garbage (hp : s.pendingMarker = 0) (hr : s.rstate ≠ .awaitingStartOfImage) (ht : s.token run = .garbage)
      (room : s.pos.toNat + 1 < 2 ^ 64) :
      ReadNext s run { s with
        discardedByteCount := sat32Add s.discardedByteCount 1, activity := .reading 0
        pos := BitVec.ofNat 64 (s.pos.toNat + 1) }
  | fill (hp : s.pendingMarker = 0) (hr : s.rstate ≠ .awaitingStartOfImage) (ht : s.token run = .pair 0xFF) :
      ReadNext s run { s with activity := .reading (run + 1) }
  | stuff (hp : s.pendingMarker = 0) (hr : s.rstate ≠ .awaitingStartOfImage) (ht : s.token run = .pair 0)
      (room : s.pos.toNat + (run + 2) < 2 ^ 64) :
      ReadNext s run { s with
        discardedByteCount := sat32Add s.discardedByteCount 2, activity := .reading 0
        pos := BitVec.ofNat 64 (s.pos.toNat + (run + 2)) }
  | marker {u t : State} (acquired : Acquired s u)
      (start : s.rstate ≠ .awaitingStartOfImage ∨ u = s ∨ u.pendingMarker = startOfImageCode)
      (h : exec (decodeCode u.pendingMarker) u = .next t)
      (fetched : fetch s = .instr (decodeCode u.pendingMarker) u) : ReadNext s run t

theorem step_reading_next {s t : State} {run : Nat} (ha : s.activity = .reading run) (h : step s = .next t) :
    ReadNext s run t := by
  have hturn := step_reading ha
  rw [h] at hturn
  generalize ho : (Host.Outcome.next t : StepOutcome) = o at hturn
  cases hturn with
  | starved hp => cases ho; exact .suspended hp
  | wrong hp hr => cases ho; exact .wrong _ hp hr rfl
  | first hp hr hl hav hu hf =>
    have hacq := State.acquireFirst_acquired hu
    have hc : _ := (State.acquireFirst_some.1 hu).2
    exact .marker hacq (.inr (.inr (by rw [hc]))) (by rw [hc] at ho ⊢; exact ho.symm) (by rw [hc] at hf ⊢; exact hf)
  | pending h0 h1 hf => exact .marker (Acquired.refl h0 h1) (.inr (.inl rfl)) ho.symm hf
  | stuck => cases ho
  | garbage hp hr ht =>
    obtain ⟨room, rfl⟩ := State.discard_next.1 ho.symm
    rw [ha]; exact .garbage hp hr ht room
  | fill hp hr ht => rw [execFill_next.1 ho.symm, ha]; exact .fill hp hr ht
  | stuff hp hr ht =>
    obtain ⟨room, rfl⟩ := execStuff_next.1 ho.symm
    rw [ha] at room ⊢; exact .stuff hp hr ht room
  | marker hp hr ht h0 h1 hu hf =>
    have hc : _ := (State.acquire_some.1 hu).2
    exact .marker (State.acquire_acquired h0 h1 hu) (.inl hr) (by rw [hc] at ho ⊢; exact ho.symm)
      (by rw [hc] at hf ⊢; exact hf)
  | overflow => cases ho

/-- What a step of READ_RESTART_MARKER leaves, when it answers a next state. -/
inductive RestartNext (s : State) (phase : RestartPhase) (run : Nat) : State → Prop
  | suspended : RestartNext s phase run s.suspend
  | garbage (ht : s.token run = .garbage) (room : s.pos.toNat + 1 < 2 ^ 64) :
      RestartNext s phase run { s with
        discardedByteCount := sat32Add s.discardedByteCount 1, activity := .restarting phase 0
        pos := BitVec.ofNat 64 (s.pos.toNat + 1) }
  | fill (ht : s.token run = .pair 0xFF) : RestartNext s phase run { s with activity := .restarting phase (run + 1) }
  | stuff (ht : s.token run = .pair 0) (room : s.pos.toNat + (run + 2) < 2 ^ 64) :
      RestartNext s phase run { s with
        discardedByteCount := sat32Add s.discardedByteCount 2, activity := .restarting phase 0
        pos := BitVec.ofNat 64 (s.pos.toNat + (run + 2)) }
  | found {u t : State} (acquired : Acquired s u) (h : u.restartFound phase = .next t) : RestartNext s phase run t

theorem step_restarting_next {s t : State} {phase : RestartPhase} {run : Nat} (ha : s.activity = .restarting phase run)
    (h : step s = .next t) : RestartNext s phase run t := by
  have hturn := step_restarting ha
  rw [h] at hturn
  generalize ho : (Host.Outcome.next t : StepOutcome) = o at hturn
  cases hturn with
  | starved => cases ho; exact .suspended
  | garbage ht =>
    obtain ⟨room, rfl⟩ := State.discard_next.1 ho.symm
    rw [ha]; exact .garbage ht room
  | fill ht => rw [execFill_next.1 ho.symm, ha]; exact .fill ht
  | stuff ht =>
    obtain ⟨room, rfl⟩ := execStuff_next.1 ho.symm
    rw [ha] at room ⊢; exact .stuff ht room
  | marker ht h0 hf hu => exact .found (State.acquire_acquired h0 hf hu) ho.symm
  | overflow => cases ho

/-- `Resync` writes only the pending code, the restart index and the end of the command (R321 to R325). -/
theorem State.resyncTurn_frame {s t : State} (h : s.resyncTurn = .next t) :
    t = { s with
      pendingMarker := t.pendingMarker, nextRestartIndex := t.nextRestartIndex, result := t.result
      activity := t.activity } := by
  rcases State.resyncTurn_next.1 h with ⟨-, rfl⟩ | ⟨-, rfl⟩ | ⟨-, rfl⟩ <;> rfl

/-- A settled restart marker writes at most one more event besides (R320, R326). -/
theorem State.settleRestart_frame {s t : State} (h : s.settleRestart = .next t) :
    t = { s with
      pendingMarker := t.pendingMarker, nextRestartIndex := t.nextRestartIndex, events := t.events, result := t.result
      activity := t.activity } ∧ s.events <+: t.events := by
  rcases State.settleRestart_next.1 h with ⟨-, rfl⟩ | ⟨-, h⟩
  · exact ⟨rfl, List.prefix_rfl⟩
  · have ht := State.resyncTurn_frame h
    refine ⟨by rw [ht]; rfl, ?_⟩
    rw [ht]; exact List.prefix_append _ _

theorem State.restartFound_frame {s t : State} {phase : RestartPhase} (h : s.restartFound phase = .next t) :
    t = { s with
      pendingMarker := t.pendingMarker, nextRestartIndex := t.nextRestartIndex, events := t.events, result := t.result
      activity := t.activity } ∧ s.events <+: t.events := by
  cases phase with
  | seeking => exact State.settleRestart_frame h
  | resyncing =>
    have ht := State.resyncTurn_frame h
    exact ⟨by rw [ht], by rw [ht]⟩

end Sys2Proof.Machine
end

