-- ==== Sys2Proof/Laws/Stream.lean ====
section
/-! SUPPORT. What it means that bytes stand in the stream: the read primitives and the buffered discipline on a segment that is
all there (`00_scope.md` R13, `30_encoding.md` R101, `41_frame_and_scan_headers.md` R160). -/

namespace Sys2Proof.Machine

/-- Bytes that stand in the stream are what the payload reader takes. -/
theorem ByteSource.Holds.take_eq {src : ByteSource} {a : Nat} {bs : List Byte} (h : src.Holds a bs) :
    src.take a bs.length = bs := by
  refine List.ext_getElem (by simp) fun k h1 h2 => ?_
  rw [ByteSource.take_getElem]
  exact (ByteSource.peek_eq_some.1 (h k h2)).2

/-- Bytes that stand in the stream have been supplied. -/
theorem ByteSource.Holds.le_avail {src : ByteSource} {a : Nat} {bs : List Byte} (h : src.Holds a bs)
    (hne : 0 < bs.length) : a + bs.length ≤ src.avail := by
  have := (ByteSource.peek_eq_some.1 (h (bs.length - 1) (by omega))).1
  omega

/-- Supplied bytes stand in the stream. -/
theorem ByteSource.holds_of_take {src : ByteSource} {a n : Nat} (h : a + n ≤ src.avail) :
    src.Holds a (src.take a n) := fun k hk => by
  rw [ByteSource.take_length] at hk
  exact ByteSource.peek_eq_some.2 ⟨by omega, (ByteSource.take_getElem src a n k (by simpa using hk)).symm⟩

theorem ByteSource.holds_append {src : ByteSource} {a : Nat} {bs cs : List Byte} :
    src.Holds a (bs ++ cs) ↔ src.Holds a bs ∧ src.Holds (a + bs.length) cs := by
  constructor
  · intro h
    refine ⟨fun k hk => ?_, fun k hk => ?_⟩
    · have := h k (by simp; omega)
      rwa [List.getElem_append_left hk] at this
    · have := h (bs.length + k) (by simp; omega)
      rw [List.getElem_append_right (by omega)] at this
      simpa [Nat.add_assoc] using this
  · rintro ⟨h1, h2⟩ k hk
    by_cases hb : k < bs.length
    · rw [List.getElem_append_left hb]; exact h1 k hb
    · rw [List.getElem_append_right (by omega)]
      have := h2 (k - bs.length) (by simp at hk; omega)
      rwa [show a + bs.length + (k - bs.length) = a + k by omega] at this

theorem ByteSource.holds_pair {src : ByteSource} {a : Nat} {b0 b1 : Byte} :
    src.Holds a [b0, b1] ↔ a + 2 ≤ src.avail ∧ Memory.read src.bytes a = b0 ∧ Memory.read src.bytes (a + 1) = b1 := by
  constructor
  · intro h
    have h0 := ByteSource.peek_eq_some.1 (h 0 (by simp))
    have h1 := ByteSource.peek_eq_some.1 (h 1 (by simp))
    exact ⟨by omega, h0.2, h1.2⟩
  · rintro ⟨h, h0, h1⟩ k hk
    match k, hk with
    | 0, _ => exact ByteSource.peek_eq_some.2 ⟨by omega, h0⟩
    | 1, _ => exact ByteSource.peek_eq_some.2 ⟨by omega, h1⟩

/-- The length field read from its two bytes. -/
theorem ByteSource.half_of_holds {src : ByteSource} {a : Nat} {l : Half} (h : src.Holds a (halfBytes l)) :
    src.half a = some l := by
  obtain ⟨hle, h0, h1⟩ := ByteSource.holds_pair.1 h
  exact ByteSource.half_eq_some.2 ⟨hle, by rw [h0, h1, be16_halfBytes]⟩

/-- A payload that stands behind its length field: the length, the wait, and the payload read (R101). -/
theorem State.Segment.read {s : State} {p : List Byte} (h : s.Segment p) :
    s.source.half s.pos.toNat = some (BitVec.ofNat 16 (p.length + 2)) ∧
    (BitVec.ofNat 16 (p.length + 2)).toNat = p.length + 2 ∧
    s.pos.toNat + (p.length + 2) ≤ s.source.avail ∧
    s.source.take (s.pos.toNat + 2) p.length = p := by
  obtain ⟨hlt, hh⟩ := h
  obtain ⟨h1, h2⟩ := ByteSource.holds_append.1 hh
  have hl : (BitVec.ofNat 16 (p.length + 2)).toNat = p.length + 2 := by simp only [BitVec.toNat_ofNat]; omega
  have hav := hh.le_avail (by simp [assemble])
  refine ⟨ByteSource.half_of_holds h1, hl, ?_, ByteSource.Holds.take_eq h2⟩
  simp [assemble] at hav; omega

/-- The buffered discipline on a whole segment whose length passes the test. -/
theorem State.buffered_segment {s : State} {p : List Byte} (h : s.Segment p) (code : Byte) (ok : Half → Bool)
    (k : Half → List Byte → Decoded) (hok : ok (BitVec.ofNat 16 (p.length + 2)) = true) :
    s.buffered code ok k = k (BitVec.ofNat 16 (p.length + 2)) p := by
  obtain ⟨h1, h2, h3, h4⟩ := h.read
  simp only [State.buffered, h1, hok, if_true, ByteSource.has, h2, h3, decide_true, Nat.add_sub_cancel, h4]

/-- Every length of a segment that is all there is at least two. -/
theorem State.Segment.length_ok {s : State} {p : List Byte} (h : s.Segment p) :
    lengthAtLeastTwo (BitVec.ofNat 16 (p.length + 2)) = true := by
  have := h.read.2.1
  simp [lengthAtLeastTwo, this]

/-- A fill keeps what stands in the stream. -/
theorem ByteSource.Holds.fill {src : ByteSource} {a : Nat} {bs : List Byte} (cs : List Byte) (hm : Memory.wf src.bytes)
    (h : src.Holds a bs) : (src.fill cs).Holds a bs := fun k hk => by
  rw [ByteSource.peek_fill_of_lt cs hm (ByteSource.peek_eq_some.1 (h k hk)).1]
  exact h k hk

end Sys2Proof.Machine
end

