-- ==== Sys2Proof/Laws/Tables.lean ====
section
/-! SUPPORT. What the functions that write the tables, the components and the bounds do, one lemma each: the component array of a
frame header (`41_frame_and_scan_headers.md` R162), the table indices of a scan header (R177), and the definitions of the table
segments, of which the last one of a table stands (`42_table_segments.md` R190 to R192). -/

namespace Sys2Proof.Machine

/-- A write to one entry leaves the others. -/
theorem fin_set_ne {α} {n} (v : Vector α n) (i j : Fin n) (x : α) (h : i ≠ j) : (v.set i.val x i.isLt)[j] = v[j] :=
  Vector.getElem_set_ne _ _ (fun hh => h (Fin.ext hh))

/-- A write to an entry stands there. -/
theorem fin_set_self {α} {n} (v : Vector α n) (i : Fin n) (x : α) : (v.set i.val x i.isLt)[i] = x :=
  Vector.getElem_set_self _

/-- As many components are allocated as the frame header names (R162). -/
theorem allocateComponents_length (n : Nat) (cs : List FrameComponent) : (allocateComponents n cs).length = cs.length := by
  induction cs generalizing n with
  | nil => rfl
  | cons c cs ih => simp [allocateComponents, ih]

/-- Their four stated fields are the header's, and no scan has named them yet (R29, R162). -/
theorem allocateComponents_spec (n : Nat) (cs : List FrameComponent) :
  (allocateComponents n cs).map (fun c => FrameComponent.mk c.id c.horizSampling c.vertSampling c.quantTableIndex) = cs ∧
   (∀ c ∈ allocateComponents n cs, c.scanned = false) := by
  induction cs generalizing n with
  | nil => simp [allocateComponents]
  | cons c cs ih => 
    refine ⟨by simp [allocateComponents, ih], ?_⟩
    intro d hd
    rcases List.mem_cons.1 hd with rfl | hd
    · rfl
    · exact (ih _).2 d hd

/-- Selectors that all name a component resolve to its least index (R177). -/
theorem resolveSelectors_ok (fr : List Component) (cs : List ScanComponent) (js : List Nat)
   (h : cs.map (fun c => fr.findIdx? (fun f => f.id == c.selector)) = js.map some) : resolveSelectors fr cs = .ok js := by
  induction cs generalizing js with
  | nil => cases js with
    | nil => rfl
    | cons j js => cases h
  | cons c cs ih => cases js with
    | nil => cases h
    | cons j js =>
      simp only [List.map_cons, List.cons.injEq] at h
      simp only [resolveSelectors, h.1, ih js h.2]

/-- The first selector that names none raises the fatal error (R177, R347). -/
theorem resolveSelectors_error (fr : List Component) (pre post : List ScanComponent) (bad : ScanComponent)
   (h1 : ∀ c ∈ pre, ∃ f ∈ fr, f.id = c.selector) (h2 : ∀ f ∈ fr, f.id ≠ bad.selector) :
   resolveSelectors fr (pre ++ bad :: post) = .error (fatalError .unknownComponent (widen bad.selector) 0) := by
  induction pre with
  | nil =>
    have : fr.findIdx? (fun f => f.id == bad.selector) = none := by
      rw [List.findIdx?_eq_none_iff]; intro f hf; simpa using h2 f hf
    simp only [List.nil_append, resolveSelectors, this]
  | cons c pre ih =>
    obtain ⟨f, hf, he⟩ := h1 c (by simp)
    cases hx : fr.findIdx? (fun f => f.id == c.selector) with
    | none =>
      rw [List.findIdx?_eq_none_iff] at hx
      have := hx f hf; simp [he] at this
    | some j =>
      simp only [List.cons_append, resolveSelectors, hx, ih (fun c hc => h1 c (by simp [hc]))]

/-- An index found lies in the list. -/
theorem findIdx_lt {fr : List Component} {p : Component → Bool} {j : Nat} (h : fr.findIdx? p = some j) : j < fr.length := by
  rw [List.findIdx?_eq_some_iff_getElem] at h; exact h.1

/-- Resolved indices are indices of the component array, one for each scan component. -/
theorem resolveSelectors_lt (fr : List Component) (cs : List ScanComponent) (js : List Nat)
    (h : resolveSelectors fr cs = .ok js) :
   js.length = cs.length ∧ ∀ j ∈ js, j < fr.length := by
  induction cs generalizing js with
  | nil => cases h; simp
  | cons c cs ih =>
    simp only [resolveSelectors] at h
    cases hx : fr.findIdx? (fun f => f.id == c.selector) with
    | none => rw [hx] at h; cases h
    | some j =>
      rw [hx] at h
      cases hr : resolveSelectors fr cs with
      | error f => rw [hr] at h; cases h
      | ok js' =>
        rw [hr] at h; cases h
        obtain ⟨a, b⟩ := ih js' hr
        exact ⟨by simp [a], by simp; exact ⟨findIdx_lt hx, b⟩⟩

/-- A scan header allocates nothing (R177). -/
theorem assignTables_length (fr : List Component) (l : List (Nat × ScanComponent)) :
    (assignTables fr l).length = fr.length := by
  induction l generalizing fr with
  | nil => rfl
  | cons a l ih => obtain ⟨j, c⟩ := a; simp [assignTables, ih]

/-- What a scan header leaves in a component: the tables of the last scan component that names it, or what
stood there (R177). -/
theorem assignTables_get (fr : List Component) (l : List (Nat × ScanComponent)) (k : Nat) (h : k < fr.length) :
    (assignTables fr l)[k]? = some (match l.reverse.find? (fun jc => jc.1 == k) with
          | none => fr[k]
          | some jc => { fr[k] with dcTableIndex := jc.2.dcTable, acTableIndex := jc.2.acTable, scanned := true }) := by
  induction l generalizing fr with
  | nil => simp [assignTables, h]
  | cons a l ih =>
    obtain ⟨j, c⟩ := a
    simp only [assignTables, List.reverse_cons, List.find?_append]
    rw [ih _ (by simpa using h)]
    cases hf : l.reverse.find? (fun jc => jc.1 == k) with
    | some jc => 
      simp only [Option.some_or]
      by_cases hjk : j = k
      · subst hjk; simp
      · simp [hjk]
    | none =>
      simp only [Option.none_or]
      by_cases hjk : j = k
      · subst hjk; simp
      · simp [hjk]

/-- Positions not written keep their value. -/
theorem storeZigzag_not_mem (zs : List (Fin 64)) (vs : List Half) (t : QuantTable) (z : Fin 64) (h : z ∉ zs) :
   (storeZigzag zs vs t)[z] = t[z] := by
  induction zs generalizing vs t with
  | nil => simp [storeZigzag]
  | cons y ys ih => cases vs with
    | nil => simp [storeZigzag]
    | cons v vs =>
      simp at h
      simp only [storeZigzag]
      rw [ih _ _ h.2]
      have : y.val ≠ z.val := fun hh => h.1 (Fin.ext hh.symm)
      exact Vector.getElem_set_ne _ _ this

/-- The k-th coefficient stands at the k-th position (R190). -/
theorem storeZigzag_get (zs : List (Fin 64)) (vs : List Half) (t : QuantTable) (hn : zs.Nodup) (k : Nat) (z : Fin 64) (v : Half)
   (hz : zs[k]? = some z) (hv : vs[k]? = some v) : (storeZigzag zs vs t)[z] = v := by
  induction zs generalizing vs t k with
  | nil => simp at hz
  | cons y ys ih => cases vs with
    | nil => simp at hv
    | cons w vs =>
      simp only [storeZigzag]
      cases k with
      | zero =>
        simp at hz hv; subst hz hv
        rw [storeZigzag_not_mem _ _ _ _ (List.nodup_cons.1 hn).1]
        exact Vector.getElem_set_self _
      | succ k => exact ih _ _ (List.nodup_cons.1 hn).2 k (by simpa using hz) (by simpa using hv)

/-- Of several definitions of one quantisation table the last stands (R190). -/
theorem QuantRegs.define_foldl (defs : List QuantDef) (q : QuantRegs) (hw : ∀ d ∈ defs, d.wf) (t : Fin 4) :
   match defs.reverse.find? (fun d => d.table == t) with
        | none =>
          (defs.foldl QuantRegs.define q).defined[t] = q.defined[t] ∧
          (defs.foldl QuantRegs.define q).tables[t] = q.tables[t]
        | some d =>
          (defs.foldl QuantRegs.define q).defined[t] = true ∧
          ∀ k : Fin 64, ∀ z, zigzag[k.val]? = some z →
            d.coeffs[k.val]? = some ((defs.foldl QuantRegs.define q).tables[t][z]) := by
  induction defs generalizing q with
  | nil => simp
  | cons d ds ih =>
    simp only [List.reverse_cons, List.find?_append, List.foldl_cons]
    have := ih (q.define d) (fun d hd => hw d (by simp [hd]))
    cases hf : ds.reverse.find? (fun d => d.table == t) with
    | some d' => rw [hf] at this; simpa using this
    | none =>
      rw [hf] at this
      simp only [Option.none_or]
      by_cases ht : d.table = t
      · subst ht
        simp only [List.find?_cons, beq_self_eq_true]
        simp only at this
        refine ⟨this.1.trans (fin_set_self _ _ _), ?_⟩
        intro k z hz
        have hlen := (hw d (by simp)).1
        have hv : d.coeffs[k.val]? = some (d.coeffs[k.val]'(by omega)) := by simp
        refine hv.trans (congrArg some ?_)
        have h3 : (q.define d).tables[d.table] = storeZigzag zigzag d.coeffs q.tables[d.table] := fin_set_self _ _ _
        have h4 := congrArg (fun t : QuantTable => t[z]) (this.2.trans h3)
        exact (h4.trans (storeZigzag_get zigzag d.coeffs _ (by decide) k.val z _ hz hv)).symm
      · have hb : (d.table == t) = false := by simpa using ht
        simp only [List.find?_cons, hb, List.find?_nil]
        simp only at this
        rw [this.1, this.2]
        exact ⟨fin_set_ne _ _ _ _ ht, fin_set_ne _ _ _ _ ht⟩

/-- Of several definitions of one Huffman table the last stands (R191). -/
theorem defineHuff_foldl (defs : List HuffDef) (q : HuffRegs) (c : Fin 2) (t : Fin 4) :
   (defs.foldl defineHuff q)[c][t] =
          match defs.reverse.find? (fun d => d.bank == c && d.table == t) with
          | none => q[c][t]
          | some d =>
            { defined := true, bits := d.counts, symCount := BitVec.ofNat 9 (symbolCount d.counts.toList)
              values := d.values } := by
  induction defs generalizing q with
  | nil => simp
  | cons d ds ih =>
    simp only [List.reverse_cons, List.find?_append, List.foldl_cons]
    rw [ih (defineHuff q d)]
    cases hf : ds.reverse.find? (fun d => d.bank == c && d.table == t) with
    | some d' => simp
    | none =>
      simp only [Option.none_or]
      by_cases hb : d.bank = c
      · by_cases ht : d.table = t
        · subst hb ht
          simp only [List.find?_cons, beq_self_eq_true, Bool.and_self]
          have h1 : (defineHuff q d)[d.bank] = q[d.bank].set d.table.val (huffTableOf d) d.table.isLt := fin_set_self _ _ _
          rw [h1]; exact fin_set_self _ _ _
        · subst hb
          have : (d.table == t) = false := by simpa using ht
          simp only [List.find?_cons, this, Bool.and_false, List.find?_nil]
          have h1 : (defineHuff q d)[d.bank] = q[d.bank].set d.table.val (huffTableOf d) d.table.isLt := fin_set_self _ _ _
          rw [h1]; exact fin_set_ne _ _ _ _ ht
      · have : (d.bank == c) = false := by simpa using hb
        simp only [List.find?_cons, this, Bool.false_and, List.find?_nil]
        have h1 : (defineHuff q d)[c] = q[c] := fin_set_ne _ _ _ _ hb
        rw [h1]

/-- Of several entries of one index the last stands (R106, R192). -/
theorem ArithRegs.apply_foldl (es : List DacEntry) (a : ArithRegs) (i : Fin 16) :
        (match es.reverse.find? (fun e => e.index.val == i.val) with
          | none =>
            (es.foldl ArithRegs.apply a).dcLow[i] = a.dcLow[i] ∧ (es.foldl ArithRegs.apply a).dcHigh[i] = a.dcHigh[i]
          | some e =>
            (es.foldl ArithRegs.apply a).dcLow[i] = lowNibble e.value ∧
            (es.foldl ArithRegs.apply a).dcHigh[i] = highNibble e.value) ∧
        (match es.reverse.find? (fun e => e.index.val == i.val + 16) with
          | none => (es.foldl ArithRegs.apply a).acK[i] = a.acK[i]
          | some e => (es.foldl ArithRegs.apply a).acK[i] = e.value) := by
  induction es generalizing a with
  | nil => simp
  | cons e es ih =>
    obtain ⟨i1, i2⟩ := ih (a.apply e)
    simp only [List.reverse_cons, List.find?_append, List.foldl_cons]
    have hi := i.isLt
    refine ⟨?_, ?_⟩
    · cases hf : es.reverse.find? (fun e => e.index.val == i.val) with
      | some d' => rw [hf] at i1; simpa using i1
      | none =>
        rw [hf] at i1; simp only at i1
        simp only [Option.none_or]
        rw [i1.1, i1.2]
        by_cases he : e.index.val = i.val
        · simp only [List.find?_cons, he, beq_self_eq_true]
          have : a.apply e = { a with
              dcLow := a.dcLow.set i.val (lowNibble e.value), dcHigh := a.dcHigh.set i.val (highNibble e.value) } := by
            simp only [ArithRegs.apply]; rw [dif_pos (by omega)]; simp only [he]
          rw [this]
          exact ⟨Vector.getElem_set_self _, Vector.getElem_set_self _⟩
        · have : (e.index.val == i.val) = false := by simpa using he
          simp only [List.find?_cons, this, List.find?_nil]
          simp only [ArithRegs.apply]
          split
          · rename_i h16
            have hne : (⟨e.index.val, h16⟩ : Fin 16) ≠ i := fun hh => he (congrArg Fin.val hh)
            exact ⟨fin_set_ne _ ⟨e.index.val, h16⟩ _ _ hne, fin_set_ne _ ⟨e.index.val, h16⟩ _ _ hne⟩
          · exact ⟨rfl, rfl⟩
    · cases hf : es.reverse.find? (fun e => e.index.val == i.val + 16) with
      | some d' => rw [hf] at i2; simpa using i2
      | none =>
        rw [hf] at i2; simp only at i2
        simp only [Option.none_or]
        rw [i2]
        by_cases he : e.index.val = i.val + 16
        · simp only [List.find?_cons, he, beq_self_eq_true]
          have h16 : e.index.val - 16 = i.val := by omega
          have : a.apply e = { a with acK := a.acK.set i.val e.value } := by
            simp only [ArithRegs.apply]; rw [dif_neg (by omega)]; simp only [h16]
          rw [this]
          exact Vector.getElem_set_self _
        · have : (e.index.val == i.val + 16) = false := by simpa using he
          simp only [List.find?_cons, this, List.find?_nil]
          simp only [ArithRegs.apply]
          split
          · rfl
          · rename_i h16
            refine fin_set_ne _ ⟨e.index.val - 16, by omega⟩ _ _ fun hh => he ?_
            have := congrArg Fin.val hh
            simp only at this; omega

end Sys2Proof.Machine
end

