-- ==== Sys2Proof/Tests/Slice0.lean ====
section
/-! SUPPORT. Tests of the model by hand: an ill-formed term for each well-formedness check; a word of the spec for every
constructor; single steps with the values of the rules' examples and of `spec/95_test_vectors.md` (the vector's name stands in the
test's docstring); and, for every obligation with hypotheses, a concrete state and operands that meet them. -/

namespace Sys2Proof.Tests

open Sys2Proof.Machine

/-! ### Small states -/

/-- A source that has supplied `bs` from position `a` on and accounted for what lies below. -/
def sourceAt (a : Nat) (bs : List Byte) : ByteSource :=
  { bytes := Memory.writeBytes [] a bs, avail := a + bs.length, eod := false }

/-- READ_MARKERS has seen the start of image; its scanner stands at position 2, where `bs` has been supplied. -/
def started (bs : List Byte) : State :=
  { State.reset.startImage with source := sourceAt 2 bs, pos := 2, activity := .reading 0 }

/-- One component of a frame. -/
def component (id : Byte) (scanned : Bool := false) : Component :=
  { id := id, horizSampling := 2, vertSampling := 1, quantTableIndex := 0, dcTableIndex := 3, acTableIndex := 3
    scanned := scanned }

/-- A frame of components 1, 2 and 3 has been accepted. -/
def framed (bs : List Byte) : State :=
  { started bs with
      frame :=
        { marker := 0xC0, precision := 8, height := 16, width := 32, componentCount := 3
          components := [component 1, component 2, component 3] }
      sawFrameHeader := true
      rstate := .haveFrameHeader }

/-- A scan of component 1 has been accepted; the core is idle. -/
def scanning (bs : List Byte) : State :=
  { framed bs with
      frame :=
        { marker := 0xC0, precision := 8, height := 16, width := 32, componentCount := 3
          components := [component 1 true, component 2, component 3] }
      scan :=
        { componentCount := 1, componentIndex := [0], spectralStart := 0, spectralEnd := 63, approxHigh := 0
          approxLow := 0 }
      scanCount := 1
      nextRestartIndex := 3
      rstate := .inScan
      activity := .idle }

/-- A latch that a fatal error has set. -/
def latched : FatalLatch := { fatal := true, code := 5, info0 := 0xDD, info1 := 5 }

/-- A field of the state a step leaves. -/
def left {α : Type} (o : StepOutcome) (f : State → α) : Option α :=
  match o with
  | .next t => some (f t)
  | _ => none

/-! ### Ill-formed terms are refused -/

theorem test_wf_res_below : ¬(Instr.res 0x01).wf := by decide
theorem test_wf_res_above : ¬(Instr.res 0xC0).wf := by decide

/-- A well-formed frame header. -/
def frameOperands (n : Nat) : FrameOperands :=
  { precision := 8, height := 16, width := 32
    components := List.replicate n { id := 1, horizSampling := 2, vertSampling := 2, quantTableIndex := 0 } }

theorem frameOperands_length (n : Nat) : (frameOperands n).components.length = n := List.length_replicate ..

theorem test_wf_frame : (frameOperands 1).wf ∧ (frameOperands 255).wf :=
  ⟨by decide, by decide, by decide, by rw [frameOperands_length]; decide, by rw [frameOperands_length]⟩
theorem test_wf_frame_height : ¬{ frameOperands 1 with height := 0 }.wf := by decide
theorem test_wf_frame_width : ¬{ frameOperands 1 with width := 0 }.wf := by decide
theorem test_wf_frame_no_component : ¬(frameOperands 0).wf := by decide
theorem test_wf_frame_many_components : ¬(frameOperands 256).wf := fun h => by
  have := h.2.2.2; rw [frameOperands_length] at this; exact absurd this (by decide)

/-- A scan header of `n` components. -/
def scanOperands (n : Nat) : ScanOperands :=
  { components := List.replicate n { selector := 1, dcTable := 1, acTable := 2 }, spectralStart := 0, spectralEnd := 63
    approxHigh := 0, approxLow := 0 }

theorem test_wf_scan : (scanOperands 1).wf ∧ (scanOperands 4).wf := by decide
theorem test_wf_scan_no_component : ¬(scanOperands 0).wf := by decide
theorem test_wf_scan_many_components : ¬(scanOperands 5).wf := by decide

/-- A quantisation definition of `n` equal coefficients. -/
def quantDef (precision : Nibble) (n : Nat) (q : Half) : QuantDef :=
  { precision := precision, table := 1, coeffs := List.replicate n q }

theorem test_wf_quant : (quantDef 0 64 255).wf ∧ (quantDef 1 64 256).wf := by simp [QuantDef.wf, quantDef]
theorem test_wf_quant_length : ¬(quantDef 0 63 1).wf := by simp [QuantDef.wf, quantDef]
theorem test_wf_quant_precision : ¬(quantDef 0 64 256).wf := by simp [QuantDef.wf, quantDef]

/-- A Huffman definition with `first` codes of length 1, no others, and `values` zero symbols. -/
def huffDef (first : Byte) (values : Nat) : HuffDef :=
  { bank := 1, table := 3, counts := (Vector.replicate 16 0).set 0 first, values := List.replicate values 0 }

theorem test_wf_huff : (huffDef 2 2).wf ∧ (huffDef 0 0).wf := by decide
theorem test_wf_huff_symbols : ¬(huffDef 2 1).wf := by decide
theorem test_wf_huff_many_symbols :
    ¬{ huffDef 255 257 with counts := ((Vector.replicate 16 0).set 0 255).set 1 2 }.wf := by
  simp only [HuffDef.wf, not_and]; intro _; decide

theorem test_wf_dac : (DacEntry.mk 15 0x54).wf ∧ (DacEntry.mk 16 0x05).wf := by decide
theorem test_wf_dac_bounds : ¬(DacEntry.mk 15 0x45).wf := by decide

/-! ### Words of the opcode map (R113) and of the command port (R120) -/

/-- A word and the instruction it stands for. -/
def reads (l : List (BitVec 16 × Instr)) : Bool := l.all fun wi => decodeWord (.marker wi.1) == some wi.2

theorem test_decode_escapes : reads [(0xFF00, .stuff), (0xFFFF, .fill)] = true := by decide
theorem test_decode_tem_res : reads [(0xFF01, .tem), (0xFF02, .res 0x02), (0xFF42, .res 0x42), (0xFFBF, .res 0xBF)] = true := by
  decide
theorem test_decode_frames : reads
    [(0xFFC0, .sof0), (0xFFC1, .sof1), (0xFFC2, .sof2), (0xFFC3, .sof3), (0xFFC5, .sof5), (0xFFC6, .sof6), (0xFFC7, .sof7),
     (0xFFC8, .jpg), (0xFFC9, .sof9), (0xFFCA, .sof10), (0xFFCB, .sof11), (0xFFCD, .sof13), (0xFFCE, .sof14),
     (0xFFCF, .sof15)] = true := by decide
theorem test_decode_tables : reads [(0xFFC4, .dht), (0xFFCC, .dac), (0xFFDB, .dqt), (0xFFDD, .dri)] = true := by decide
theorem test_decode_restarts : reads
    [(0xFFD0, .rst0), (0xFFD1, .rst1), (0xFFD2, .rst2), (0xFFD3, .rst3), (0xFFD4, .rst4), (0xFFD5, .rst5), (0xFFD6, .rst6),
     (0xFFD7, .rst7)] = true := by decide
theorem test_decode_delimiters : reads
    [(0xFFD8, .soi), (0xFFD9, .eoi), (0xFFDA, .sos), (0xFFDC, .dnl), (0xFFDE, .dhp), (0xFFDF, .exp)] = true := by decide
theorem test_decode_applications : reads
    [(0xFFE0, .app0), (0xFFE1, .app1), (0xFFE2, .app2), (0xFFE3, .app3), (0xFFE4, .app4), (0xFFE5, .app5), (0xFFE6, .app6),
     (0xFFE7, .app7), (0xFFE8, .app8), (0xFFE9, .app9), (0xFFEA, .app10), (0xFFEB, .app11), (0xFFEC, .app12),
     (0xFFED, .app13), (0xFFEE, .app14), (0xFFEF, .app15)] = true := by decide
theorem test_decode_extensions : reads
    [(0xFFF0, .jpg0), (0xFFF1, .jpg1), (0xFFF2, .jpg2), (0xFFF3, .jpg3), (0xFFF4, .jpg4), (0xFFF5, .jpg5), (0xFFF6, .jpg6),
     (0xFFF7, .jpg7), (0xFFF8, .jpg8), (0xFFF9, .jpg9), (0xFFFA, .jpg10), (0xFFFB, .jpg11), (0xFFFC, .jpg12),
     (0xFFFD, .jpg13), (0xFFFE, .com)] = true := by decide
theorem test_decode_commands :
    decodeWord (.command 0b00) = some .nop ∧ decodeWord (.command 0b01) = some .resetStream ∧
    decodeWord (.command 0b10) = some .readMarkers ∧ decodeWord (.command 0b11) = some .readRestartMarker := by decide

theorem test_decode_rejects :
    decode [0xFE, 0xD8] = .error (.notIntroducer 0xFE) ∧ decode [0xFF] = .error .truncated ∧
    decodeWord (.marker 0x00D8) = none := by decide

/-- FILL leaves its second byte for the next look (R143). -/
theorem test_decode_fill_rest :
    decode [0xFF, 0xFF, 0xD8] = .ok (.fill, [0xFF, 0xD8]) ∧ decode [0xFF, 0xDD, 0x00] = .ok (.dri, [0x00]) := by decide

/-- The zigzag table is the one of R117, through the table of X4: its inverse. -/
theorem test_zigzag_inverse :
    (List.finRange 64).map (fun z => zigzag.idxOf z) =
      [0, 1, 5, 6, 14, 15, 27, 28] ++ [2, 4, 7, 13, 16, 26, 29, 42] ++ [3, 8, 12, 17, 25, 30, 41, 43] ++
      [9, 11, 18, 24, 31, 40, 44, 53] ++ [10, 19, 23, 32, 39, 45, 52, 54] ++ [20, 22, 33, 38, 46, 51, 55, 60] ++
      [21, 34, 37, 47, 50, 56, 59, 61] ++ [35, 36, 48, 49, 57, 58, 62, 63] := by decide

/-! ### Single steps

The state `started bs` stands just behind a marker whose segment begins with `bs`; the vectors' positions are two higher. -/

/-- F1. -/
theorem test_soi :
    left (step { State.reset with source := sourceAt 0 [0xFF, 0xD8], activity := .reading 0 })
      (fun t => (t.rstate, t.sawStartOfImage, t.pos, t.arith.dcHigh[7], t.arith.acK[15], t.pendingMarker)) =
      some (.haveStartOfImage, true, 2, 1, 5, 0) := by decide

/-- F2. -/
theorem test_soi_twice :
    left (exec .soi { started [] with pendingMarker := 0xD8 }) (fun t => (t.latch.code, t.pendingMarker, t.result)) =
      some (1, 0xD8, .fatalError) := by decide

/-- The segment of F3. -/
def frameSegment : List Byte :=
  [0x00, 0x11, 0x08, 0x00, 0x10, 0x00, 0x20, 0x03, 0x01, 0x22, 0x00, 0x02, 0x11, 0x01, 0x03, 0x11, 0x01]

/-- F3. -/
theorem test_sof0 :
    left (exec .sof0 (started frameSegment)) (fun t =>
      (t.frame.marker, t.frame.precision, t.frame.height, t.frame.width, t.pos)) = some (0xC0, 8, 16, 32, 19) := by decide

/-- F3, the components. -/
theorem test_sof0_components :
    left (exec .sof0 (started frameSegment)) (fun t =>
      (t.frame.componentCount, t.frame.components.map fun c => (c.id, c.horizSampling, c.vertSampling, c.quantTableIndex))) =
      some (3, [(1, 2, 2, 0), (2, 1, 1, 1), (3, 1, 1, 1)]) := by decide

/-- F4: height 0. -/
theorem test_sof0_empty :
    left (exec .sof0 (started [0x00, 0x0B, 0x08, 0x00, 0x00, 0x00, 0x20, 0x01, 0x01, 0x11, 0x00]))
      (fun t => (t.latch, t.sawFrameHeader)) = some (⟨true, 4, 0, 0x20⟩, false) := by decide

/-- F5: no component. -/
theorem test_sof1_empty :
    left (exec .sof1 (started [0x00, 0x08, 0x08, 0x00, 0x10, 0x00, 0x20, 0x00])) (·.latch) =
      some ⟨true, 4, 0x10, 0x20⟩ := by decide

/-- F10: a duplicate frame header fails without its bytes. -/
theorem test_sof2_duplicate : left (exec .sof2 (framed [])) (·.latch) = some ⟨true, 2, 0xC2, 0⟩ := by decide

/-- F11: a suspension inside a frame header applies nothing. -/
theorem test_sof2_suspends :
    left (exec .sof2 { started (frameSegment.take 6) with pendingMarker := 0xC2 })
      (fun t => (t.result, t.pos, t.pendingMarker, t.sawFrameHeader)) = some (.suspended, 2, 0xC2, false) := by decide

/-- The code accepted is the one stored (R166, R167). -/
theorem test_sof9_sof10 :
    left (exec .sof9 (started frameSegment)) (·.frame.marker) = some 0xC9 ∧
    left (exec .sof10 (started frameSegment)) (·.frame.marker) = some 0xCA := by decide

/-- F13 to F21. -/
theorem test_unsupported :
    ([Instr.sof3, .sof5, .sof6, .sof7, .jpg, .sof11, .sof13, .sof14, .sof15].map fun i =>
      left (exec i (started [])) (fun t => (t.latch.code, t.latch.info0))) =
      [some (9, 0xC3), some (9, 0xC5), some (9, 0xC6), some (9, 0xC7), some (9, 0xC8), some (9, 0xCB), some (9, 0xCD),
       some (9, 0xCE), some (9, 0xCF)] := by decide

/-- U1 to U8 and the codes between. -/
theorem test_unknown :
    ([Instr.res 0x02, .res 0x42, .res 0xBF, .dhp, .exp, .jpg0, .jpg1, .jpg2, .jpg3, .jpg4, .jpg5, .jpg6, .jpg7, .jpg8, .jpg9,
      .jpg10, .jpg11, .jpg12, .jpg13].map fun i => left (exec i (started [])) (fun t => (t.latch.code, t.latch.info0))) =
      [some (10, 0x02), some (10, 0x42), some (10, 0xBF), some (10, 0xDE), some (10, 0xDF), some (10, 0xF0), some (10, 0xF1),
       some (10, 0xF2), some (10, 0xF3), some (10, 0xF4), some (10, 0xF5), some (10, 0xF6), some (10, 0xF7), some (10, 0xF8),
       some (10, 0xF9), some (10, 0xFA), some (10, 0xFB), some (10, 0xFC), some (10, 0xFD)] := by decide

/-- I0, I3, I7, I8. -/
theorem test_informational :
    ([Instr.tem, .rst0, .rst1, .rst2, .rst3, .rst4, .rst5, .rst6, .rst7].map fun i =>
      left (exec i { started [] with pendingMarker := 0xD0 }) (fun t => (t.pendingMarker, t.nextRestartIndex, t.pos))) =
      List.replicate 9 (some (0, 0, 2)) := by decide

/-- E1. -/
theorem test_eoi :
    left (exec .eoi { started [] with pendingMarker := 0xD9 }) (fun t => (t.result, t.rstate, t.pendingMarker)) =
      some (.reachedEndOfStream, .haveStartOfImage, 0) := by decide

/-- C8: of two scan components that name one frame component the later one's tables stand. -/
theorem test_sos :
    left (exec .sos (framed [0x00, 0x0A, 0x02, 0x01, 0x00, 0x01, 0x12, 0x00, 0x3F, 0x00])) (fun t =>
      (t.result, t.rstate, t.scanCount, t.pos)) = some (.reachedScanStart, .inScan, 1, 12) := by decide

/-- C8, the components. -/
theorem test_sos_tables :
    left (exec .sos (framed [0x00, 0x0A, 0x02, 0x01, 0x00, 0x01, 0x12, 0x00, 0x3F, 0x00])) (fun t =>
      (t.scan.componentIndex, t.frame.components.map fun c => (c.dcTableIndex, c.acTableIndex))) =
      some ([0, 0], [(1, 2), (3, 3), (3, 3)]) := by decide

/-- C7: selector 9 names no component. -/
theorem test_sos_unknown :
    left (exec .sos (framed [0x00, 0x0A, 0x02, 0x01, 0x00, 0x09, 0x11, 0x00, 0x3F, 0x00])) (fun t => (t.latch, t.scanCount)) =
      some (⟨true, 6, 9, 0⟩, 0) := by decide

/-- Q1: 8-bit table 0, values 1 to 64 in zigzag order. -/
theorem test_dqt :
    left (exec .dqt (started ([0x00, 0x43, 0x00] ++ (List.range 64).map (fun k => BitVec.ofNat 8 (k + 1)))))
      (fun t => (t.quant.defined.toList, [0, 1, 8, 16, 9, 2, 63].map (fun k => (t.quant.tables[0].toList)[k]?), t.pos)) =
      some ([true, false, false, false], [some 1, some 2, some 3, some 4, some 5, some 6, some 64], 69) := by decide

/-- Q3: table index 4. -/
theorem test_dqt_index :
    left (exec .dqt (started ([0x00, 0x43, 0x04] ++ List.replicate 64 1))) (fun t => (t.latch, t.quant.defined.toList)) =
      some (⟨true, 7, 0xDB, 4⟩, [false, false, false, false]) := by decide

/-- H1: one AC table. -/
theorem test_dht :
    left (exec .dht (started ([0x00, 0x15, 0x10, 0x00, 0x02] ++ List.replicate 14 0 ++ [0x05, 0x06])))
      (fun t => (t.huff[1][0].defined, t.huff[1][0].bits.toList, t.huff[1][0].symCount, t.huff[1][0].values,
        t.huff[0][0].defined, t.pos)) =
      some (true, 0 :: 2 :: List.replicate 14 0, 2, [5, 6], false, 23) := by decide

/-- H10: a bad index and a count over the room: the count is tested first. -/
theorem test_dht_order :
    left (exec .dht (started ([0x00, 0x15, 0x39, 0x03] ++ List.replicate 15 0 ++ [0x07, 0x08]))) (·.latch) =
      some ⟨true, 12, 3, 2⟩ := by decide

/-- A5: index 31 and index 15, low = high. -/
theorem test_dac :
    left (exec .dac (started [0x00, 0x06, 0x1F, 0xC8, 0x0F, 0x77])) (fun t =>
      (t.arith.dcLow[15], t.arith.dcHigh[15], t.arith.acK[15], t.pos)) = some (7, 7, 200, 8) := by decide

/-- A6: a good entry, then bad bounds: nothing applied. -/
theorem test_dac_bounds :
    left (exec .dac (started [0x00, 0x06, 0x00, 0x31, 0x01, 0x13])) (fun t => (t.latch, t.arith.dcLow[0], t.arith.dcHigh[0])) =
      some (⟨true, 8, 1, 0x13⟩, 0, 1) := by decide

/-- R1. -/
theorem test_dri :
    left (exec .dri (started [0x00, 0x04, 0x00, 0x08])) (fun t => (t.restartInterval, t.pos)) = some (8, 6) := by decide

/-- R2: `L = 5`, judged with only the length field present. -/
theorem test_dri_length : left (exec .dri (started [0x00, 0x05])) (fun t => (t.latch, t.pos)) = some (⟨true, 5, 0xDD, 5⟩, 2) := by
  decide

/-- J5: both warnings, in order. -/
theorem test_app0 :
    left (exec .app0 (started
        [0x00, 0x11, 0x4A, 0x46, 0x49, 0x46, 0x00, 0x03, 0x07, 0x00, 0x00, 0x01, 0x00, 0x01, 0x01, 0x00, 0x09]))
      (fun t => (t.jfif, t.events, t.pos)) =
      some (⟨true, 3, 7, 0, 1, 1⟩, [⟨.jfifMajorMismatch, 3, 7⟩, ⟨.badThumbnailSize, 1, 0x0100⟩], 19) := by decide

/-- J6: the signature in a payload of 13 bytes: too short. -/
theorem test_app0_short :
    left (exec .app0 (started
        [0x00, 0x0F, 0x4A, 0x46, 0x49, 0x46, 0x00, 0x01, 0x02, 0x01, 0x00, 0x48, 0x00, 0x48, 0x00]))
      (fun t => (t.jfif.saw, t.events, t.pos)) = some (false, [], 17) := by decide

/-- D4: bytes behind the twelfth are skipped. -/
theorem test_app14 :
    left (exec .app14 (started
        [0x00, 0x11, 0x41, 0x64, 0x6F, 0x62, 0x65, 0x00, 0x65, 0x00, 0x01, 0x00, 0x02, 0x02, 0xFF, 0xD9, 0xAA]))
      (fun t => (t.adobe, t.pos)) = some (⟨true, 101, 1, 2, 2⟩, 19) := by decide

/-- D3: the signature is compared without case folding. -/
theorem test_app14_case :
    left (exec .app14 (started
        [0x00, 0x0E, 0x61, 0x64, 0x6F, 0x62, 0x65, 0x00, 0x64, 0x00, 0x00, 0x00, 0x00, 0x02]))
      (fun t => (t.adobe.saw, t.pos)) = some (false, 16) := by decide

/-- K1 to K6: the skip kinds; `L = 0` skips the length field, `L = 65535` carries `pos` past the bytes supplied. -/
theorem test_skip :
    ([Instr.app1, .app2, .app3, .app4, .app5, .app6, .app7, .app8, .app9, .app10, .app11, .app12, .app13, .app15, .com,
        .dnl].map fun i =>
      ([[0x00, 0x00], [0x00, 0x05, 0x68], [0xFF, 0xFF]].map fun bs => left (exec i (started bs)) (·.pos))) =
      List.replicate 16 [some 4, some 7, some 65537] := by decide

/-- S3, R143: padding moves the Cursor only. -/
theorem test_fill :
    left (step (started [0xFF, 0xFF, 0xD9])) (fun t => (t.activity, t.pos, t.discardedByteCount)) = some (.reading 1, 2, 0) := by
  decide

/-- S5: a run of three prefixes and a zero counts 2. -/
theorem test_stuff :
    left (step { started [0xFF, 0xFF, 0xFF, 0x00] with activity := .reading 2 })
      (fun t => (t.activity, t.pos, t.discardedByteCount)) = some (.reading 0, 6, 2) := by decide

/-- The counter saturates (R26). -/
theorem test_stuff_saturates :
    left (exec .stuff { started [0xFF, 0x00] with discardedByteCount := 0xFFFFFFFE }) (·.discardedByteCount) =
      some 0xFFFFFFFF := by decide

/-- S2: the warning of a marker found. -/
theorem test_warning :
    left (step { started [0xFF, 0xD9] with discardedByteCount := 5 }) (fun t => (t.events, t.discardedByteCount, t.result)) =
      some ([⟨.extraneousData, 5, 0xD9⟩], 0, .reachedEndOfStream) := by decide

/-- S10: no padding before the first marker. -/
theorem test_first_marker :
    left (step { State.reset with source := sourceAt 0 [0xFF, 0xFF, 0xD8], activity := .reading 0 })
      (fun t => (t.latch, t.pos, t.pendingMarker)) = some (⟨true, 11, 0xFF, 0xFF⟩, 0, 0) := by decide

/-- M1: NOP and READ_MARKERS with the latch set. -/
theorem test_latched_commands :
    left (exec .nop { State.reset with latch := latched }) (fun t => (t.result, t.latch)) = some (.idle, latched) ∧
    left (exec .readMarkers { State.reset with latch := latched }) (fun t => (t.result, t.activity)) =
      some (.fatalError, .idle) := by decide

/-- M1, R288: RESET_STREAM clears the latch and keeps the tables' flags. -/
theorem test_reset_stream :
    left (exec .resetStream
        { scanning [] with latch := latched, quant := { State.reset.quant with defined := Vector.replicate 4 true } })
      (fun t => (t.result, t.latch, t.rstate, t.pos, t.quant.defined.toList)) =
      some (.resetDone, FatalLatch.clear, .awaitingStartOfImage, 0, [true, true, true, true]) := by decide

/-- Z4: a marker four away is discarded. -/
theorem test_restart_discard :
    left (exec .readRestartMarker { scanning [] with pendingMarker := 0xD7 })
      (fun t => (t.result, t.pendingMarker, t.nextRestartIndex, t.events)) =
      some (.restartOk, 0, 4, [⟨.mustResync, 0xD7, 3⟩]) := by decide

/-- Z13: outside a scan. -/
theorem test_restart_outside :
    exec .readRestartMarker { framed [] with activity := .idle } = .refused .restartOutsideScan := rfl

/-- X5: the whole table of restart markers, row d, column k. -/
theorem test_classify :
    ((List.finRange 8).map fun d => (List.finRange 8).map fun k =>
      match classify (BitVec.ofNat 8 (0xD0 + k.val)) (BitVec.ofNat 3 d.val) with
      | .discard => 0
      | .leave => 1
      | .scanForward => 2) =
      [[0, 1, 1, 0, 0, 0, 2, 2], [2, 0, 1, 1, 0, 0, 0, 2], [2, 2, 0, 1, 1, 0, 0, 0], [0, 2, 2, 0, 1, 1, 0, 0],
       [0, 0, 2, 2, 0, 1, 1, 0], [0, 0, 0, 2, 2, 0, 1, 1], [1, 0, 0, 0, 2, 2, 0, 1], [1, 1, 0, 0, 0, 2, 2, 0]] := by decide

/-- The word of a table row is run by the very next step (log entry 14): DRI with its operand bytes 0 fails on `L = 0`. -/
theorem test_fetch_word :
    left (step (State.reset.withFetchWord 16 0xFFDD)) (fun t => (t.latch, t.pos)) = some (⟨true, 5, 0xDD, 0⟩, 2) ∧
    decodeTableWord 16 0xFFDD = some .dri := by decide

/-! ### Witnesses: states and operands that meet the hypotheses of the obligations

`witness_<Obligation>` (with a suffix for a clause) meets the hypotheses of `Obligations.<Obligation>`. -/

theorem sourceAt_holds (a : Nat) (bs : List Byte) : (sourceAt a bs).Holds a bs := fun k hk =>
  ByteSource.peek_eq_some.2
    ⟨by simp [sourceAt]; omega, Memory.read_writeBytes bs k hk ⟨.nil, fun c hc => by simp at hc⟩⟩

/-- A segment stands at `pos`. -/
theorem started_segment (p : List Byte) (h : p.length + 2 < 2 ^ 16) : (started (assemble p)).Segment p :=
  ⟨h, sourceAt_holds 2 _⟩

theorem framed_segment (p : List Byte) (h : p.length + 2 < 2 ^ 16) : (framed (assemble p)).Segment p :=
  ⟨h, sourceAt_holds 2 _⟩

/-- READ_MARKERS stands at the very top of the position space, with `bs` supplied there. -/
def topped (bs : List Byte) : State :=
  { started [] with source := sourceAt (2 ^ 64 - 1) bs, pos := 0xFFFFFFFFFFFFFFFF }

theorem topped_segment (p : List Byte) (h : p.length + 2 < 2 ^ 16) : (topped (assemble p)).Segment p :=
  ⟨h, sourceAt_holds _ _⟩

/-! #### Encoding -/

theorem witness_WordsAndInstructionsCorrespond : (Instr.res 0x02).wf ∧ (Instr.res 0xBF).wf ∧ Instr.sof0.wf := by decide

theorem witness_FrameOperandsRoundTrip :
    (encodeFrame (frameOperands 1)).length + 2 = (11 : Half).toNat ∧ (frameOperands 1).wf ∧
    (encodeFrame (frameOperands 255)).length + 2 = (773 : Half).toNat ∧ (frameOperands 255).wf :=
  ⟨by decide, test_wf_frame.1, by rw [encodeFrame_length, frameOperands_length]; decide, test_wf_frame.2⟩

theorem witness_ScanOperandsRoundTrip :
    (encodeScan (scanOperands 1)).length + 2 = (8 : Half).toNat ∧ (scanOperands 1).wf ∧
    (encodeScan (scanOperands 4)).length + 2 = (14 : Half).toNat ∧ (scanOperands 4).wf := by decide

/-! #### Commands -/

theorem witness_ResetTable : (scanning []).activity = .idle ∧ State.reset.activity = .idle := by decide
theorem witness_ResetStreamReturns : { scanning [] with latch := latched }.activity = .idle := by decide
theorem witness_NopReturnsIdle : { scanning [] with latch := latched }.activity = .idle := by decide
theorem witness_ReadMarkersBegins :
    { scanning [] with latch := latched }.activity = .idle ∧ { scanning [] with latch := latched }.latch.fatal = true ∧
    (scanning []).activity = .idle ∧ (scanning []).latch.fatal = false := by decide

/-- The core is idle in a scan with the expected index 3 and code `m` pending. -/
def awaiting (m : Byte) : State := { scanning [] with pendingMarker := m }

theorem witness_ReadRestartMarkerCases_latched :
    { awaiting 0 with latch := latched }.activity = .idle ∧ { awaiting 0 with latch := latched }.latch.fatal = true := by decide
theorem witness_ReadRestartMarkerCases_outside :
    { framed [] with activity := .idle }.latch.fatal = false ∧ { framed [] with activity := .idle }.rstate ≠ .inScan := by decide
theorem witness_ReadRestartMarkerCases_scan (m : Byte) :
    (awaiting m).activity = .idle ∧ (awaiting m).latch.fatal = false ∧ (awaiting m).rstate = .inScan ∧
    (awaiting m).pendingMarker = m ∧ (awaiting m).nextRestartIndex = 3 := ⟨rfl, rfl, rfl, rfl, rfl⟩
/-- Under `witness_ReadRestartMarkerCases_scan`: every action occurs, at the ends of its ranges of codes. -/
theorem witness_ReadRestartMarkerCases_actions :
    ([0xC0, 0xCF, 0xD4, 0xD5, 0xD8, 0xFE].all fun m => classify m 3 = .leave) = true ∧
    ([0xD6, 0xD7, 0xD0].all fun m => classify m 3 = .discard) = true ∧
    ([0x01, 0xBF, 0xD1, 0xD2].all fun m => classify m 3 = .scanForward) = true := by decide

theorem witness_ClassificationTable :
    (0xBF : Byte) < 0xC0 ∧ ((0xC0 : Byte) ≤ 0xC0 ∧ (0xC0 : Byte) < 0xD0) ∧ ((0xC0 : Byte) ≤ 0xCF ∧ (0xCF : Byte) < 0xD0) ∧
    ((0xC0 : Byte) ≤ 0xD8 ∧ (0xD7 : Byte) < 0xD8) ∧ (0xD0 : Byte) = 0xD0 + (0 : BitVec 3).setWidth 8 ∧
    (0xD7 : Byte) = 0xD0 + (7 : BitVec 3).setWidth 8 := by decide

theorem witness_CommandsRefusedWhileBusy : (started []).activity ≠ .idle := by decide

/-! #### Start of image, frame and scan headers -/

theorem witness_StartOfImage : (started []).sawStartOfImage = true ∧ State.reset.sawStartOfImage = false := by decide

/-- A frame header of 1 and of 255 components, the two ends. -/
theorem witness_FrameHeaderAccepted (n : Nat) (h : n = 1 ∨ n = 255) :
    (frameOperands n).wf ∧ (started (assemble (encodeFrame (frameOperands n)))).sawFrameHeader = false ∧
    (started (assemble (encodeFrame (frameOperands n)))).Segment (encodeFrame (frameOperands n)) ∧
    (started (assemble (encodeFrame (frameOperands n)))).Room (3 * (frameOperands n).components.length + 8) := by
  have hp : (started (assemble (encodeFrame (frameOperands n)))).pos.toNat = 2 := rfl
  refine ⟨?_, rfl, started_segment _ ?_, ?_⟩
  · rcases h with rfl | rfl
    · exact test_wf_frame.1
    · exact test_wf_frame.2
  · rw [encodeFrame_length, frameOperands_length]; omega
  · unfold State.Room; rw [hp, frameOperands_length]; omega

theorem witness_FrameHeaderRefused_duplicate : (framed []).sawFrameHeader = true := by decide
theorem witness_FrameHeaderRefused_length :
    (started [0x00, 0x01]).sawFrameHeader = false ∧
    (started [0x00, 0x01]).source.half (started [0x00, 0x01]).pos.toNat = some 1 ∧ (1 : Half).toNat < 2 := by decide
theorem witness_FrameHeaderRefused_short :
    (started (assemble [])).Segment [] ∧ (started (assemble [8, 0, 16, 0, 32])).Segment [8, 0, 16, 0, 32] ∧
    [8, 0, 16, 0, 32].length < 6 := ⟨started_segment _ (by decide), started_segment _ (by decide), by decide⟩
/-- Height 0, width 0, no component; then a payload one byte short and one byte long. -/
theorem witness_FrameHeaderRefused_contents (y x : Half) (nf : Byte) (rest : List Byte) (h : rest.length < 2 ^ 15) :
    let p := 8 :: (halfBytes y ++ (halfBytes x ++ nf :: rest))
    (started (assemble p)).Segment p := started_segment _ (by simp; omega)
theorem witness_FrameHeaderRefused_values :
    ((0 : Half) = 0 ∨ (0xFFFF : Half) = 0 ∨ (1 : Byte) = 0) ∧ ((1 : Half) = 0 ∨ (0 : Half) = 0 ∨ (1 : Byte) = 0) ∧
    ((1 : Half) = 0 ∨ (1 : Half) = 0 ∨ (0 : Byte) = 0) ∧ ((1 : Half) ≠ 0 ∧ (1 : Half) ≠ 0 ∧ (1 : Byte) ≠ 0) ∧
    (List.replicate 2 (0 : Byte)).length ≠ 3 * (1 : Byte).toNat ∧
    (List.replicate 4 (0 : Byte)).length ≠ 3 * (1 : Byte).toNat := by
  decide

/-- One component and four, the two ends; all four name the second of the frame's components. -/
theorem witness_ScanHeaderAccepted (n : Nat) (h : n = 1 ∨ n = 4) :
    let o := scanOperands n
    let s := framed (assemble (encodeScan o))
    o.wf ∧ s.sawFrameHeader = true ∧ s.Segment (encodeScan o) ∧ s.Room (2 * o.components.length + 6) ∧
    o.components.map (fun c => s.frame.components.findIdx? (fun f => f.id == c.selector)) = (List.replicate n 0).map some := by
  rcases h with rfl | rfl <;>
    exact ⟨by decide, rfl, framed_segment _ (by decide), by decide, by decide⟩

theorem witness_ScanHeaderRefused_no_frame : (started []).sawFrameHeader = false := by decide
theorem witness_ScanHeaderRefused_length :
    (framed [0x00, 0x01]).sawFrameHeader = true ∧
    (framed [0x00, 0x01]).source.half (framed [0x00, 0x01]).pos.toNat = some 1 ∧ (1 : Half).toNat < 2 := by decide
theorem witness_ScanHeaderRefused_empty : (framed (assemble [])).Segment [] := framed_segment _ (by decide)
/-- No component, five components, a payload one byte short and one byte long. -/
theorem witness_ScanHeaderRefused_count (ns : Byte) (rest : List Byte)
    (h : (ns, rest.length) ∈ [((0 : Byte), 3), (5, 13), (1, 4), (1, 6)]) :
    (framed (assemble (ns :: rest))).Segment (ns :: rest) ∧
    (ns.toNat < 1 ∨ 4 < ns.toNat ∨ rest.length ≠ 2 * ns.toNat + 3) := by
  simp only [List.mem_cons, Prod.mk.injEq, List.not_mem_nil, or_false] at h
  refine ⟨framed_segment _ ?_, ?_⟩
  · rcases h with ⟨-, h⟩ | ⟨-, h⟩ | ⟨-, h⟩ | ⟨-, h⟩ <;> simp [h]
  · rcases h with ⟨rfl, h⟩ | ⟨rfl, h⟩ | ⟨rfl, h⟩ | ⟨rfl, h⟩ <;> simp [h]
/-- The first component is known, the second (selector 4) is not. -/
theorem witness_ScanHeaderRefused_selector :
    let good : ScanComponent := { selector := 1, dcTable := 0, acTable := 0 }
    let bad : ScanComponent := { selector := 4, dcTable := 0, acTable := 0 }
    let o := { scanOperands 1 with components := [good] ++ bad :: [] }
    let s := framed (assemble (encodeScan o))
    o.wf ∧ s.Segment (encodeScan o) ∧ (∀ c ∈ [good], ∃ f ∈ s.frame.components, f.id = c.selector) ∧
    ∀ f ∈ s.frame.components, f.id ≠ bad.selector :=
  ⟨by decide, framed_segment _ (by decide), by decide, by decide⟩

/-! #### Table segments -/

theorem quantDef_length (pq : Nibble) (q : Half) :
    (encodeQuantDef (quantDef pq 64 q)).length = (if pq = 0 then 1 else 2) * 64 + 1 := by
  simp only [encodeQuantDef, List.length_cons, encodeCoefficients_length, quantDef, List.length_replicate]

/-- No definition at all; and two of one table, one of each precision. -/
theorem witness_QuantTablesDefined (defs : List QuantDef) (h : defs = [] ∨ defs = [quantDef 0 64 255, quantDef 1 64 256]) :
    let p := defs.flatMap encodeQuantDef
    (∀ d ∈ defs, d.wf) ∧ (started (assemble p)).Segment p ∧ (started (assemble p)).Room (p.length + 2) := by
  rcases h with rfl | rfl
  · exact ⟨by simp, started_segment _ (by decide), by decide⟩
  · have hl : ([quantDef 0 64 255, quantDef 1 64 256].flatMap encodeQuantDef).length = 194 := by
      simp only [List.flatMap_cons, List.flatMap_nil, List.length_append, List.length_nil, quantDef_length]; rfl
    refine ⟨by simpa using test_wf_quant, started_segment _ (by omega), ?_⟩
    have hp : (started (assemble ([quantDef 0 64 255, quantDef 1 64 256].flatMap encodeQuantDef))).pos.toNat = 2 := rfl
    unfold State.Room
    omega

theorem witness_QuantSegmentRefused_length :
    (started [0x00, 0x00]).source.half (started [0x00, 0x00]).pos.toNat = some 0 ∧ (0 : Half).toNat < 2 := by decide
/-- Index 4; then a definition one byte short, of each precision. -/
theorem witness_QuantSegmentRefused (pq tq : Nibble) (n : Nat)
    (h : (pq, tq, n) ∈ [((0 : Nibble), (4 : Nibble), 0), (0, 3, 63), (1, 3, 127)]) :
    let p := ([] : List QuantDef).flatMap encodeQuantDef ++ packNibbles pq tq :: List.replicate n 0
    (started (assemble p)).Segment p ∧
    (4 ≤ tq.toNat ∨ tq.toNat < 4 ∧ (List.replicate n (0 : Byte)).length < (if pq = 0 then 64 else 128)) := by
  simp only [List.mem_cons, Prod.mk.injEq, List.not_mem_nil, or_false] at h
  rcases h with ⟨rfl, rfl, rfl⟩ | ⟨rfl, rfl, rfl⟩ | ⟨rfl, rfl, rfl⟩ <;> exact ⟨started_segment _ (by decide), by decide⟩

/-- No definition; and two of one table. -/
theorem witness_HuffTablesDefined (defs : List HuffDef) (h : defs = [] ∨ defs = [huffDef 2 2, huffDef 0 0]) :
    let p := defs.flatMap encodeHuffDef
    (∀ d ∈ defs, d.wf) ∧ (started (assemble p)).Segment p ∧ (started (assemble p)).Room (p.length + 2) := by
  rcases h with rfl | rfl
  · exact ⟨by simp, started_segment _ (by decide), by decide⟩
  · refine ⟨by decide, started_segment _ (by decide), by decide⟩

theorem witness_HuffSegmentRefused_length :
    (started [0x00, 0x01]).source.half (started [0x00, 0x01]).pos.toNat = some 1 ∧ (1 : Half).toNat < 2 := by decide
theorem witness_HuffSegmentRefused_short :
    let p := ([] : List HuffDef).flatMap encodeHuffDef ++ 0x00 :: List.replicate 15 0
    (started (assemble p)).Segment p ∧ (List.replicate 15 (0 : Byte)).length < 16 :=
  ⟨started_segment _ (by decide), by decide⟩
/-- 257 symbols announced; one announced and none there; no symbol, of class 2; no symbol, of table 4. -/
theorem witness_HuffSegmentRefused_symbols (b : Byte) (counts values : List Byte)
    (h : (b, counts, values) ∈ [((0x00 : Byte), 255 :: 2 :: List.replicate 14 (0 : Byte), ([] : List Byte)),
      (0x00, 1 :: List.replicate 15 0, []), (0x20, List.replicate 16 0, []), (0x04, List.replicate 16 0, [])]) :
    let p := ([] : List HuffDef).flatMap encodeHuffDef ++ b :: (counts ++ values)
    (started (assemble p)).Segment p ∧ counts.length = 16 ∧
    (256 < symbolCount counts ∨ values.length < symbolCount counts ∨
      symbolCount counts ≤ 256 ∧ symbolCount counts ≤ values.length ∧ (2 ≤ (highNibble b).toNat ∨ 4 ≤ (lowNibble b).toNat)) := by
  simp only [List.mem_cons, Prod.mk.injEq, List.not_mem_nil, or_false] at h
  rcases h with ⟨rfl, rfl, rfl⟩ | ⟨rfl, rfl, rfl⟩ | ⟨rfl, rfl, rfl⟩ | ⟨rfl, rfl, rfl⟩ <;>
    exact ⟨started_segment _ (by decide), by decide, by decide⟩

theorem witness_ArithConditioned :
    let es : List DacEntry := [⟨15, 0x77⟩, ⟨16, 0x05⟩, ⟨31, 0xFF⟩, ⟨0, 0x10⟩]
    let s := started (assemble (es.flatMap encodeDacEntry))
    (∀ e ∈ es, e.wf) ∧ s.Segment (es.flatMap encodeDacEntry) ∧ s.Room (2 * es.length + 2) :=
  ⟨by decide, started_segment _ (by decide), by decide⟩

theorem witness_ArithSegmentRefused_length :
    (started [0x00, 0x01]).source.half (started [0x00, 0x01]).pos.toNat = some 1 ∧ (1 : Half).toNat < 2 := by decide
theorem witness_ArithSegmentRefused_odd :
    let p := [DacEntry.mk 15 0x54].flatMap encodeDacEntry ++ [(0x00 : Byte)]
    (started (assemble p)).Segment p ∧ ∀ e ∈ [DacEntry.mk 15 0x54], e.wf := ⟨started_segment _ (by decide), by decide⟩
/-- Index 32; then index 15 with its bounds crossed by one. -/
theorem witness_ArithSegmentRefused_entry :
    (let p := ([] : List DacEntry).flatMap encodeDacEntry ++ 32 :: packNibbles 0 0 :: [];
      (started (assemble p)).Segment p ∧ 32 ≤ (32 : Byte).toNat) ∧
    (let p := ([] : List DacEntry).flatMap encodeDacEntry ++ 15 :: packNibbles 4 5 :: [];
      (started (assemble p)).Segment p ∧ (15 : Byte).toNat < 16 ∧ (4 : Nibble).toNat < (5 : Nibble).toNat) :=
  ⟨⟨started_segment _ (by decide), by decide⟩, started_segment _ (by decide), by decide, by decide⟩

theorem witness_RestartIntervalSegment_waits :
    (started [0x00]).source.avail < (started [0x00]).pos.toNat + 2 ∧
    (started [0x00, 0x04, 0x00]).source.half (started [0x00, 0x04, 0x00]).pos.toNat = some 4 ∧
    (started [0x00, 0x04, 0x00]).source.avail < (started [0x00, 0x04, 0x00]).pos.toNat + 4 := by decide
theorem witness_RestartIntervalSegment_length :
    (started [0x00, 0x03]).source.half (started [0x00, 0x03]).pos.toNat = some 3 ∧ (3 : Half) ≠ 4 ∧
    (started [0x00, 0x05]).source.half (started [0x00, 0x05]).pos.toNat = some 5 ∧ (5 : Half) ≠ 4 := by decide
theorem witness_RestartIntervalSegment_whole :
    (started (assemble (halfBytes 0xFFFF))).Segment (halfBytes 0xFFFF) ∧ (started (assemble (halfBytes 0xFFFF))).Room 4 :=
  ⟨started_segment _ (by decide), by decide⟩

/-! #### Skipped and recognised segments -/

/-- A state whose recognisers are off. -/
def skipping (bs : List Byte) : State := { started bs with config := { app0 := false, app14 := false } }

/-- Every form of the skip kinds; no whole length field; the lengths 0, 2, 3 and 65535 with no payload byte supplied. -/
theorem witness_SkippedSegments :
    (Instr.dnl ∈ [Instr.app1, .app2, .app3, .app4, .app5, .app6, .app7, .app8, .app9, .app10, .app11, .app12, .app13, .app15,
      .com, .dnl]) ∧
    (Instr.app0 = .app0 ∧ (skipping []).config.app0 = false) ∧ (Instr.app14 = .app14 ∧ (skipping []).config.app14 = false) ∧
    (skipping [0x00]).source.avail < (skipping [0x00]).pos.toNat + 2 ∧
    (([(0 : Half), 2, 3, 65535].all fun l => (skipping (halfBytes l)).source.half 2 = some l ∧
      (skipping (halfBytes l)).Room (max l.toNat 2)) = true) := by decide

/-- The shortest recognised segments: no thumbnail, no further byte; with and without each warning. -/
theorem witness_JfifRecognised (j : JfifOperands) :
    let s := started (halfBytes 16 ++ encodeJfif j)
    s.config.app0 = true ∧ 16 ≤ (16 : Half).toNat ∧ s.source.Holds s.pos.toNat (halfBytes 16 ++ encodeJfif j) ∧
    s.Room (16 : Half).toNat := ⟨rfl, by decide, sourceAt_holds 2 _, by show 2 + 16 < 2 ^ 64; decide⟩

theorem witness_AdobeRecognised (a : AdobeOperands) :
    let s := started (halfBytes 14 ++ encodeAdobe a)
    s.config.app14 = true ∧ 14 ≤ (14 : Half).toNat ∧ s.source.Holds s.pos.toNat (halfBytes 14 ++ encodeAdobe a) ∧
    s.Room (14 : Half).toNat := ⟨rfl, by decide, sourceAt_holds 2 _, by show 2 + 14 < 2 ^ 64; decide⟩

theorem witness_UnmatchedExtensionsSkipped_forms :
    (Instr.app0 = .app0 ∧ (started []).config.app0 = true) ∧
    (Instr.app14 = .app14 ∧ (started []).config.app14 = true) := by decide
/-- No whole length field; length 16 or 14 with one byte of the fixed part missing. -/
theorem witness_UnmatchedExtensionsSkipped_waits :
    (started [0x00]).source.avail < (started [0x00]).pos.toNat + 2 ∧
    (let s := started ([0x00, 0x10] ++ List.replicate 13 0);
      s.source.half s.pos.toNat = some 16 ∧ s.source.avail < s.pos.toNat + 2 + min ((16 : Half).toNat - 2) 14) ∧
    (let s := started ([0x00, 0x0E] ++ List.replicate 11 0);
      s.source.half s.pos.toNat = some 14 ∧ s.source.avail < s.pos.toNat + 2 + min ((14 : Half).toNat - 2) 12) := by decide
/-- Length 0; length one short of the fixed part; the whole fixed part with a wrong last byte of the signature. -/
theorem witness_UnmatchedExtensionsSkipped_skips :
    (let s := started [0x00, 0x00];
      s.source.half s.pos.toNat = some 0 ∧ s.pos.toNat + 2 + min ((0 : Half).toNat - 2) 14 ≤ s.source.avail ∧
      s.Room (max (0 : Half).toNat 2) ∧ (0 : Half).toNat < 14 + 2) ∧
    (let s := started ([0x00, 0x0D] ++ List.replicate 11 0);
      s.source.half s.pos.toNat = some 13 ∧ s.pos.toNat + 2 + min ((13 : Half).toNat - 2) 12 ≤ s.source.avail ∧
      s.Room (max (13 : Half).toNat 2) ∧ (13 : Half).toNat < 12 + 2) ∧
    (let s := started ([0x00, 0x10, 0x4A, 0x46, 0x49, 0x46, 0x01] ++ List.replicate 9 0);
      s.source.half s.pos.toNat = some 16 ∧ s.pos.toNat + 2 + min ((16 : Half).toNat - 2) 14 ≤ s.source.avail ∧
      s.Room (max (16 : Half).toNat 2) ∧ ¬s.source.Holds (s.pos.toNat + 2) [0x4A, 0x46, 0x49, 0x46, 0x00]) := by decide

/-! #### Suspension and fatal errors -/

theorem witness_BufferedKindsSuspend :
    (started []).sawFrameHeader = false ∧ (framed []).sawFrameHeader = true ∧
    (let s := framed [0x00, 0x02];
      s.source.half s.pos.toNat = some 2 ∧ ¬s.source.avail < s.pos.toNat + (2 : Half).toNat) ∧
    (let s := framed [0x00, 0x03];
      s.source.half s.pos.toNat = some 3 ∧ s.source.avail < s.pos.toNat + (3 : Half).toNat) := by decide

theorem witness_FatalErrorsArePrecise :
    ∃ t, Instr.soi ≠ .resetStream ∧ exec .soi (started []) = .next t ∧ t.latch ≠ (started []).latch :=
  ⟨_, by decide, rfl, by decide⟩

theorem witness_LatchIsSticky :
    ∃ t, let s := { framed [] with latch := latched, activity := .idle, inputs := [.fill [0xFF], .command 1] }
      s.latch.fatal = true ∧ s.activity = .idle ∧ s.inputs.head? ≠ some (.command 1) ∧ step s = .next t :=
  ⟨_, rfl, rfl, by decide, rfl⟩

/-! #### The scanner and the steps -/

theorem witness_Escapes :
    { started [] with activity := .reading 3 }.activity = .reading 3 ∧ { started [] with activity := .reading 3 }.Room (3 + 2) ∧
    { scanning [] with activity := .restarting .resyncing 0 }.activity = .restarting .resyncing 0 ∧
    { scanning [] with activity := .restarting .resyncing 0 }.Room (0 + 2) := by decide

/-- Between two markers, `run` further introducers swallowed. -/
def between (bs : List Byte) (run : Nat) : State := { started bs with activity := .reading run }

theorem witness_ScannerTurn (bs : List Byte) (run : Nat) :
    (between bs run).activity = .reading run ∧ (between bs run).pendingMarker = 0 ∧
    (between bs run).rstate ≠ .awaitingStartOfImage := ⟨rfl, rfl, by simp [between, started, State.startImage]⟩
theorem witness_ScannerTurn_first :
    (between [] 0).source.peek 2 = none ∧ ((between [0xFE] 0).source.peek 2 = some 0xFE ∧ (0xFE : Byte) ≠ 0xFF) ∧
    (between [0xFE] 0).Room 1 := by decide
theorem witness_ScannerTurn_pair :
    ((0 = 0 → (between [0xFF] 0).source.peek 2 = some 0xFF) ∧ (between [0xFF] 0).source.peek (2 + 0 + 1) = none) ∧
    ((1 = 0 → (between [0xFF, 0xFF, 0xFF] 1).source.peek 2 = some 0xFF) ∧
      (between [0xFF, 0xFF, 0xFF] 1).source.peek (2 + 1 + 1) = some 0xFF) ∧
    (between [0xFF, 0xFF, 0x00] 1).source.peek (2 + 1 + 1) = some 0x00 ∧
    ((between [0xFF, 0x01] 0).source.peek 2 = some 0xFF ∧ (between [0xFF, 0x01] 0).source.peek (2 + 0 + 1) = some 0x01 ∧
      (0x01 : Byte) ≠ 0x00 ∧ (0x01 : Byte) ≠ 0xFF ∧ (between [0xFF, 0x01] 0).Room (0 + 2)) ∧
    (between [0xFF, 0xFF, 0xFE] 1).source.peek (2 + 1 + 1) = some 0xFE := by decide

/-- READ_MARKERS at the start of a stream of which `bs` has been supplied. -/
def beginning (bs : List Byte) : State := { State.reset with source := sourceAt 0 bs, activity := .reading 0 }

theorem witness_FirstMarkerTurn :
    (beginning []).activity = .reading 0 ∧ (beginning []).pendingMarker = 0 ∧
    (beginning []).rstate = .awaitingStartOfImage ∧ (beginning [0xFF]).source.avail < (beginning [0xFF]).pos.toNat + 2 ∧
    (beginning [0xFF, 0xD8]).source.Holds 0 [0xFF, 0xD8] ∧ (beginning [0xFF, 0xD8]).Room 2 ∧
    ((beginning [0xFF, 0xD9]).source.Holds 0 [0xFF, 0xD9] ∧ ¬((0xFF : Byte) = 0xFF ∧ (0xD9 : Byte) = 0xD8)) := by decide

/-- READ_RESTART_MARKER scans `bs`, which stands at position 2. -/
def restarting (phase : RestartPhase) (run : Nat) (bs : List Byte) : State :=
  { scanning bs with
      activity := .restarting phase run
      pendingMarker := if phase = .resyncing then 0xD1 else 0 }

theorem witness_RestartScanTurn :
    (restarting .seeking 0 []).activity = .restarting .seeking 0 ∧ (restarting .seeking 0 []).source.peek 2 = none ∧
    ((restarting .resyncing 0 [0x00]).source.peek 2 = some 0x00 ∧ (0x00 : Byte) ≠ 0xFF ∧
      (restarting .resyncing 0 [0x00]).Room 1) ∧
    ((restarting .seeking 0 [0xFF]).source.peek 2 = some 0xFF ∧ (restarting .seeking 0 [0xFF]).source.peek (2 + 0 + 1) = none) ∧
    (restarting .seeking 2 [0xFF, 0xFF, 0xFF, 0xFF]).source.peek (2 + 2 + 1) = some 0xFF ∧
    (restarting .seeking 2 [0xFF, 0xFF, 0xFF, 0x00]).source.peek (2 + 2 + 1) = some 0x00 := by decide
theorem witness_RestartScanTurn_found :
    (let s := restarting .seeking 0 [0xFF, 0xD3];
      s.source.peek (2 + 0 + 1) = some 0xD3 ∧ s.Room (0 + 2) ∧ s.rstate = .inScan ∧ s.latch.fatal = false) ∧
    (let s := restarting .resyncing 1 [0xFF, 0xFF, 0xFE];
      s.activity = .restarting .resyncing 1 ∧ s.source.peek (2 + 1 + 1) = some 0xFE ∧ (0xFE : Byte) ≠ 0x00 ∧
      (0xFE : Byte) ≠ 0xFF ∧ s.Room (1 + 2)) := by decide

theorem witness_StepRunsDecoded_command :
    { scanning [] with inputs := [.command 3] }.activity = .idle ∧
    { scanning [] with inputs := [.command 3] }.inputs = [.command 3] := by
  decide
theorem witness_StepRunsDecoded_pending :
    { started [] with pendingMarker := 0xFE }.activity = .reading 0 ∧
    { started [] with pendingMarker := 0xFE }.pendingMarker ≠ 0 ∧
    { started [] with pendingMarker := 0xFE }.pendingMarker ≠ 0xFF := by decide
theorem witness_StepRunsDecoded_stream :
    ((between [0xFF, 0xFF] 0).source.Holds 2 [0xFF, 0xFF] ∧ decode [0xFF, 0xFF] = .ok (.fill, [0xFF])) ∧
    ((between [0xFF, 0x00] 0).source.Holds 2 [0xFF, 0x00] ∧ decode [0xFF, 0x00] = .ok (.stuff, [])) ∧
    ((between [0xFF, 0xDB] 0).source.Holds 2 [0xFF, 0xDB] ∧ decode [0xFF, 0xDB] = .ok (.dqt, []) ∧ Instr.dqt ≠ .fill ∧
      Instr.dqt ≠ .stuff ∧ (between [0xFF, 0xDB] 0).discardedByteCount = 0 ∧ (between [0xFF, 0xDB] 0).Room 2) := by decide

/-! #### The environment -/

/-- The core is idle in a scan and `i` is its next input. -/
def facing (i : Input) : State := { scanning [0xAA, 0xBB] with inputs := [i] }

theorem witness_EnvironmentTurns (i : Input) : (facing i).activity = .idle ∧ (facing i).inputs = [i] := ⟨rfl, rfl⟩
/-- Both branches of the source's duty: 8 skipped bytes behind the one supplied are accounted for up to `pos`, not beyond. -/
theorem witness_EnvironmentTurns_account :
    let s := { facing (.account 8) with pos := 12 }
    s.source.avail + 8 ≤ s.pos.toNat ∧ ¬s.source.avail + 9 ≤ s.pos.toNat := by decide

theorem witness_EntropyStageLiberties_consume :
    (facing (.consume 2)).rstate = .inScan ∧ (facing (.consume 2)).latch.fatal = false ∧
    (facing (.consume 2)).pos.toNat + 2 ≤ (facing (.consume 2)).source.avail ∧ (facing (.consume 2)).Room 2 ∧
    (facing (.consume 3)).source.avail < (facing (.consume 3)).pos.toNat + 3 := by decide
theorem witness_EntropyStageLiberties_handOver :
    (facing (.handOver 0x01)).rstate = .inScan ∧ (facing (.handOver 0x01)).latch.fatal = false ∧
    (facing (.handOver 0x01)).pendingMarker = 0 ∧ (0x01 : Byte) ≠ 0x00 ∧ (0xFE : Byte) ≠ 0xFF ∧
    { framed [] with inputs := [.handOver 0xD0], activity := .idle }.rstate ≠ .inScan ∧
    { facing (.handOver 0xD0) with pendingMarker := 0xD0 }.pendingMarker ≠ 0 ∧
    { facing (.handOver 0xD0) with latch := latched }.latch.fatal = true := by decide

theorem witness_FillSuppliesBytes :
    Memory.wf (sourceAt 0 [0xFF, 0x00]).bytes ∧ 1 < (sourceAt 0 [0xFF, 0x00]).avail ∧
    (sourceAt 0 [0xFF, 0x00]).avail + [(0xAA : Byte)].length ≤ 3 := by decide

/-- A skip kind; a recognised and an unmatched extension; the same with the recogniser off. -/
theorem witness_PositionOverflowRefused_skip :
    (topped [0x00, 0x00]).source.half (topped [0x00, 0x00]).pos.toNat = some 0 ∧
    ¬(topped [0x00, 0x00]).Room (max (0 : Half).toNat 2) ∧
    (topped [0x00, 0x00]).pos.toNat + 2 + min ((0 : Half).toNat - 2) 14 ≤ (topped [0x00, 0x00]).source.avail ∧
    { topped [] with config := { app0 := false, app14 := false } }.config.app0 = false ∧ (topped []).config.app14 = true := by
  decide
theorem witness_PositionOverflowRefused_buffered (p : List Byte) (h : p.length + 2 < 2 ^ 16) :
    (topped (assemble p)).Segment p ∧ ¬(topped (assemble p)).Room (p.length + 2) ∧
    (topped (assemble p)).sawFrameHeader = false := by
  have hp : (topped (assemble p)).pos.toNat = 2 ^ 64 - 1 := rfl
  exact ⟨topped_segment p h, by unfold State.Room; rw [hp]; omega, rfl⟩
theorem witness_PositionOverflowRefused_operands :
    (frameOperands 1).wf ∧ (scanOperands 1).wf ∧ (quantDef 0 64 255).wf ∧ (huffDef 2 2).wf ∧ (DacEntry.mk 15 0x54).wf ∧
    (∀ c ∈ (scanOperands 1).components, ∃ f ∈ (framed []).frame.components, f.id = c.selector) :=
  ⟨test_wf_frame.1, test_wf_scan.1, test_wf_quant.1, test_wf_huff.1, test_wf_dac.1, by decide⟩
theorem witness_PositionOverflowRefused_scan (p : List Byte) (h : p.length + 2 < 2 ^ 16) :
    let s := { framed [] with source := sourceAt (2 ^ 64 - 1) (assemble p), pos := 0xFFFFFFFFFFFFFFFF }
    s.Segment p ∧ ¬s.Room (p.length + 2) ∧ s.sawFrameHeader = true := by
  refine ⟨⟨h, sourceAt_holds _ _⟩, ?_, rfl⟩
  show ¬(2 ^ 64 - 1 + (p.length + 2) < 2 ^ 64)
  omega
theorem witness_PositionOverflowRefused_scanner :
    ¬(topped []).Room ((topped []).activity.run + 2) ∧
    (let s := { topped [0xFF, 0xD8] with rstate := .awaitingStartOfImage, sawStartOfImage := false };
      s.activity = .reading 0 ∧ s.pendingMarker = 0 ∧ s.source.Holds s.pos.toNat [0xFF, 0xD8] ∧ ¬s.Room 2) ∧
    ((topped [0xAA]).activity = .reading 0 ∧ (topped [0xAA]).rstate ≠ .awaitingStartOfImage ∧
      (topped [0xAA]).source.peek (topped [0xAA]).pos.toNat = some 0xAA ∧ ¬(topped [0xAA]).Room 1) ∧
    ((topped [0xFF, 0xD9]).source.peek (topped [0xFF, 0xD9]).pos.toNat = some 0xFF ∧
      (topped [0xFF, 0xD9]).source.peek ((topped [0xFF, 0xD9]).pos.toNat + 0 + 1) = some 0xD9 ∧
      ¬(topped [0xFF, 0xD9]).Room (0 + 2)) := by
  decide

/-- One byte of coded data at the last position, with the position space used up behind it. -/
theorem witness_PositionOverflowRefused_consume :
    let s := { facing (.consume 1) with source := sourceAt (2 ^ 64 - 1) [0xAA], pos := 0xFFFFFFFFFFFFFFFF }
    s.activity = .idle ∧ s.inputs = [.consume 1] ∧ s.rstate = .inScan ∧ s.latch.fatal = false ∧
    s.pos.toNat + 1 ≤ s.source.avail ∧ ¬s.Room 1 := by decide

/-! #### Frames -/

/-- Each group has an instruction that goes on. -/
theorem witness_InstructionFrames :
    (∃ t, exec .rst0 (started []) = .next t) ∧ (∃ t, exec .com (started [0x00, 0x02]) = .next t) ∧
    (∃ t, exec .app0 (started [0x00, 0x02]) = .next t) ∧ (∃ t, exec .app14 (started [0x00, 0x02]) = .next t) ∧
    (∃ t, exec .dqt (started [0x00, 0x02]) = .next t) ∧ (∃ t, exec .dht (started [0x00, 0x02]) = .next t) ∧
    (∃ t, exec .dac (started [0x00, 0x04, 0x00, 0x11]) = .next t) ∧
    (∃ t, exec .dri (started [0x00, 0x04, 0x00, 0x08]) = .next t) ∧
    (∃ t, exec .soi State.reset = .next t) ∧ (∃ t, exec .sof0 (started frameSegment) = .next t) ∧
    (∃ t, exec .sos (framed [0x00, 0x08, 0x01, 0x01, 0x00, 0x00, 0x3F, 0x00]) = .next t) ∧
    (∃ t, exec .nop (scanning []) = .next t) ∧ (∃ t, exec .readMarkers (scanning []) = .next t) ∧
    (∃ t, exec .fill (started []) = .next t) ∧ (∃ t, exec .stuff (started []) = .next t) ∧
    (∃ t, exec .readRestartMarker (scanning []) = .next t) ∧ (∃ t, exec .resetStream (scanning []) = .next t) :=
  ⟨⟨_, rfl⟩, ⟨_, rfl⟩, ⟨_, rfl⟩, ⟨_, rfl⟩, ⟨_, rfl⟩, ⟨_, rfl⟩, ⟨_, rfl⟩, ⟨_, rfl⟩, ⟨_, rfl⟩, ⟨_, rfl⟩, ⟨_, rfl⟩, ⟨_, rfl⟩,
    ⟨_, rfl⟩, ⟨_, rfl⟩, ⟨_, rfl⟩, ⟨_, rfl⟩, ⟨_, rfl⟩⟩

/-! #### The whole machine -/

/-- A safe state from its parts; all but the memory and the command in progress is settled by evaluation. -/
theorem safe_of {s : State} (hm : Memory.wf s.source.bytes) (ha : s.ActivityInv)
    (h : decide (s.ReaderInv ∧ s.PendingInv ∧ s.LatchInv ∧ s.FrameInv ∧ s.ScanInv ∧
      (∀ (c : Fin 2) (t : Fin 4), s.huff[c][t].Ok) ∧ (s.sawStartOfImage = true → s.arith.Ordered)) = true) : s.Inv :=
  have ⟨h1, h2, h3, h4, h5, h6, h7⟩ := of_decide_eq_true h
  ⟨hm, h1, h2, h3, h4, h5, h6, h7, ha⟩

theorem sourceAt_wf (a : Nat) (bs : List Byte) : Memory.wf (sourceAt a bs).bytes :=
  Memory.writeBytes_wf _ _ ⟨.nil, fun c hc => by simp at hc⟩

/-- The core is idle in a scan. -/
theorem scanning_safe (bs : List Byte) : (scanning bs).Inv :=
  safe_of (sourceAt_wf _ _) ⟨fun h => absurd rfl h, trivial⟩ rfl

/-- READ_MARKERS between two markers, a frame header accepted. -/
theorem framed_safe (bs : List Byte) : (framed bs).Inv :=
  safe_of (sourceAt_wf _ _) ⟨fun h => absurd rfl h, fun h => absurd rfl h⟩ rfl

/-- READ_MARKERS between two markers, no frame header yet. -/
theorem started_safe (bs : List Byte) : (started bs).Inv :=
  safe_of (sourceAt_wf _ _) ⟨fun h => absurd rfl h, fun h => absurd rfl h⟩ rfl

/-- READ_MARKERS in the middle of a run of introducers. -/
theorem between_safe : (between [0xFF, 0xFF, 0xFF, 0xD9] 2).Inv :=
  safe_of (sourceAt_wf _ _) ⟨fun _ => by decide, fun _ => by decide⟩ rfl

/-- READ_RESTART_MARKER in both phases. -/
theorem restarting_safe (bs : List Byte) : (restarting .seeking 0 bs).Inv ∧ (restarting .resyncing 0 bs).Inv :=
  ⟨safe_of (sourceAt_wf _ _) ⟨fun h => absurd rfl h, rfl, rfl⟩ rfl,
    safe_of (sourceAt_wf _ _)
      ⟨fun h => absurd rfl h, rfl, by simp [restarting], by show classify 0xD1 3 = .scanForward; decide⟩ rfl⟩

theorem witness_StepKeepsInvariant :
    (∃ t, (between [0xFF, 0xFF, 0xFF, 0xD9] 2).Inv ∧ step (between [0xFF, 0xFF, 0xFF, 0xD9] 2) = .next t) ∧
    (∃ t, (framed [0x00]).Inv ∧ step (framed [0x00]) = .next t) ∧
    (∃ t, (restarting .resyncing 0 [0xFF, 0xD4]).Inv ∧ step (restarting .resyncing 0 [0xFF, 0xD4]) = .next t) :=
  ⟨⟨_, between_safe, rfl⟩, ⟨_, framed_safe _, rfl⟩, ⟨_, (restarting_safe _).2, rfl⟩⟩

theorem witness_StreamIsReadOnly :
    (∃ t, step (framed [0x00]) = .next t ∧ (framed [0x00]).activity ≠ .idle) ∧
    (∃ t, step (facing (.fill [0xFF])) = .next t ∧ Memory.wf (facing (.fill [0xFF])).source.bytes ∧
      (facing (.fill [0xFF])).inputs.head? ≠ some (.command 1) ∧ 2 < (facing (.fill [0xFF])).source.avail) :=
  ⟨⟨_, rfl, by decide⟩, ⟨_, rfl, sourceAt_wf _ _, by decide, by decide⟩⟩

theorem witness_PositionNeverDecreases :
    ∃ t, step (framed [0x00]) = .next t ∧
      ¬((framed [0x00]).activity = .idle ∧ (framed [0x00]).inputs.head? = some (.command 1)) ∧ t.pos ≠ (framed [0x00]).pos :=
  ⟨_, rfl, by decide, by decide⟩

theorem witness_EventLogAppendOnly :
    ∃ t, step (facing (.command 1)) = .next t := ⟨_, rfl⟩

/-- The step that accepts a scan header, and one that keeps the reader state. -/
theorem witness_ReaderStateGoesForward :
    (let s := { framed [0x00, 0x08, 0x01, 0x01, 0x00, 0x00, 0x3F, 0x00] with pendingMarker := 0xDA };
      s.Inv ∧ (∃ t, step s = .next t ∧ t.rstate.code = s.rstate.code + 1) ∧ s.sawStartOfImage = true ∧ s.sawFrameHeader = true ∧
      ¬(s.activity = .idle ∧ s.inputs.head? = some (.command 1))) ∧
    ∃ t, (framed [0x00]).Inv ∧ step (framed [0x00]) = .next t ∧ t.rstate = (framed [0x00]).rstate :=
  ⟨⟨safe_of (sourceAt_wf _ _) ⟨fun h => absurd rfl h, fun h => absurd rfl h⟩ rfl, ⟨_, rfl, by decide⟩, by decide, by decide,
      by decide⟩,
    _, framed_safe _, rfl, by decide⟩

theorem witness_FrameIsImmutable :
    ∃ t, let s := { framed [0x00, 0x08, 0x01, 0x01, 0x00, 0x00, 0x3F, 0x00] with pendingMarker := 0xDA };
      s.sawFrameHeader = true ∧ step s = .next t ∧ ¬(s.activity = .idle ∧ s.inputs.head? = some (.command 1)) ∧
      t.frame ≠ s.frame := ⟨_, by decide, rfl, by decide, by decide⟩

theorem witness_TablesChangedByTheirSegments :
    (∃ t, let s := { started ([0x00, 0x43, 0x00] ++ List.replicate 64 1) with pendingMarker := 0xDB };
      step s = .next t ∧ t.quant ≠ s.quant) ∧
    (∃ t, let s := { started ([0x00, 0x13, 0x00] ++ List.replicate 16 0) with pendingMarker := 0xC4 };
      step s = .next t ∧ t.huff ≠ s.huff) :=
  ⟨⟨_, rfl, by decide⟩, ⟨_, rfl, by decide⟩⟩

/-- A safe state whose command is refused: the position space is used up. -/
theorem witness_SafeStatesGoOn :
    (topped [0xAA]).Inv ∧ (topped [0xAA]).activity ≠ .idle ∧ step (topped [0xAA]) = .refused .positionOverflow :=
  ⟨safe_of (sourceAt_wf _ _) ⟨fun h => absurd rfl h, fun h => absurd rfl h⟩ rfl, by decide, rfl⟩

/-- READ_MARKERS ends in each of its four ways. -/
theorem witness_ResultsOfCommands_read :
    (∃ t, (framed []).Inv ∧ (framed []).activity = .reading 0 ∧ step (framed []) = .next t ∧ t.activity = .idle ∧
      t.result = .suspended) ∧
    (let s := framed [0xFF, 0xDA, 0x00, 0x08, 0x01, 0x01, 0x00, 0x00, 0x3F, 0x00];
      ∃ t, s.Inv ∧ step s = .next t ∧ t.activity = .idle ∧ t.result = .reachedScanStart) ∧
    (∃ t, step (framed [0xFF, 0xD9]) = .next t ∧ t.activity = .idle ∧ t.result = .reachedEndOfStream) ∧
    (∃ t, step (framed [0xFF, 0xD8]) = .next t ∧ t.activity = .idle ∧ t.result = .fatalError) :=
  ⟨⟨_, framed_safe _, rfl, rfl, rfl, rfl⟩, ⟨_, framed_safe _, rfl, rfl, rfl⟩, ⟨_, rfl, rfl, rfl⟩, ⟨_, rfl, rfl, rfl⟩⟩

/-- The pending marker at the end: kept for a decoder that waits, 0 for a `FirstMarker` that fails, kept for a decoder that
fails. -/
theorem witness_ResultsOfCommands_pending :
    (∃ t, (framed [0xFF, 0xDB]).Inv ∧ step (framed [0xFF, 0xDB]) = .next t ∧ t.activity = .idle ∧ t.result = .suspended ∧
      t.pendingMarker = 0xDB) ∧
    (∃ t, (beginning [0xFF, 0xD9]).Inv ∧ step (beginning [0xFF, 0xD9]) = .next t ∧ t.activity = .idle ∧
      t.result = .fatalError ∧ t.pendingMarker = 0) ∧
    (∃ t, (framed [0xFF, 0xD8]).Inv ∧ step (framed [0xFF, 0xD8]) = .next t ∧ t.activity = .idle ∧ t.result = .fatalError ∧
      t.pendingMarker = 0xD8) :=
  ⟨⟨_, framed_safe _, rfl, rfl, rfl, rfl⟩,
    ⟨_, safe_of (sourceAt_wf _ _) ⟨fun h => absurd rfl h, fun h => absurd rfl h⟩ rfl, rfl, rfl, rfl, rfl⟩,
    ⟨_, framed_safe _, rfl, rfl, rfl, rfl⟩⟩

/-- READ_RESTART_MARKER ends in both its ways. -/
theorem witness_ResultsOfCommands_restart :
    (∃ t, (restarting .seeking 0 []).Inv ∧ step (restarting .seeking 0 []) = .next t ∧ t.activity = .idle ∧
      t.result = .suspended) ∧
    (∃ t, (restarting .resyncing 0 [0xFF, 0xD4]).Inv ∧ step (restarting .resyncing 0 [0xFF, 0xD4]) = .next t ∧
      t.activity = .idle ∧
      t.result = .restartOk) :=
  ⟨⟨_, (restarting_safe _).1, rfl, rfl, rfl⟩, ⟨_, (restarting_safe _).2, rfl, rfl, rfl⟩⟩

theorem witness_CommandsEnd :
    (between [0xFF, 0xFF, 0xFF, 0xD9] 2).Inv ∧
    (between [0xFF, 0xFF, 0xFF, 0xD9] 2).source.avail + 2 ^ 16 ≤ 2 ^ 64 ∧ (between [0xFF, 0xFF, 0xFF, 0xD9] 2).activity ≠ .idle :=
  ⟨between_safe, by decide, by decide⟩

/-- The stream `FF D8 FF D9`, cut behind its first byte. -/
theorem witness_ChunkingDoesNotMatter :
    ∃ u w,
      (let s := { State.reset with result := .resetDone };
        s.Inv ∧ s.activity = .idle ∧ s.latch.fatal = false ∧
        runSteps 3 { s with inputs := [.fill [0xFF], .command 2] } = some u ∧ u.inputs = [] ∧ u.activity = .idle ∧
        u.result = .suspended ∧
        runSteps 4 { u with inputs := [.fill [0xD8, 0xFF, 0xD9], .command 2] } = some w ∧ w.inputs = [] ∧ w.activity = .idle ∧
        w.result = .reachedEndOfStream) :=
  ⟨_, _, safe_of ⟨.nil, fun c hc => by simp [State.reset, ByteSource.empty] at hc⟩
    ⟨fun h => absurd rfl h, trivial⟩ rfl, rfl, rfl, rfl, rfl, rfl, rfl, rfl, rfl, rfl, rfl⟩

theorem witness_QueriesAreGuarded_running : (started []).activity ≠ .idle ∧ Element.pos ≠ .events := by decide

/-- The event log while a command runs, and another element then (R46, R42). -/
theorem test_query_running :
    (started []).query .events = .ok (.log []) ∧ (started []).query .pos = .error .commandWhileRunning := ⟨rfl, rfl⟩

theorem witness_QueriesAreGuarded :
    (scanning []).Inv ∧ (scanning []).activity = .idle ∧ (scanning []).sawFrameHeader = true ∧ (scanning []).rstate = .inScan :=
  ⟨scanning_safe _, rfl, rfl, rfl⟩

end Sys2Proof.Tests
end

/-! SUPPORT. The readers of the segment payloads: what they accept is well formed (R102 to R106, R162, R177, R191, R192), and
what the assembler writes they read back. -/

namespace Sys2Proof.Machine

/-! ### What a reader accepts is well formed -/

theorem frameComponents_length {n : Nat} {bs : List Byte} (h : bs.length = 3 * n) : (frameComponents bs).length = n :=
  (encode_frameComponents n bs h).2

theorem scanComponents_length {n : Nat} {bs : List Byte} (h : 2 * n ≤ bs.length) : (scanComponents n bs).1.length = n :=
  (encode_scanComponents n bs h).2

/-- An accepted frame header has a positive size and a component count that fits its byte (R162). -/
theorem readFrame_wf {code : Byte} {l : Half} {p : List Byte} {o : FrameOperands} (hp : p.length + 2 = l.toNat)
    (h : readFrame code l p = .ok o) : o.wf := by
  unfold readFrame at h
  split at h
  next pr y1 y0 x1 x0 nf rest =>
    split at h
    · cases h
    next hne =>
      split at h
      · cases h
      next hlen =>
        cases h
        simp only [not_or] at hne
        obtain ⟨hy, hx, hn⟩ := hne
        have hn : 0 < nf.toNat := by bv_omega
        have hc : (frameComponents rest).length = nf.toNat := frameComponents_length (by simp at hp; omega)
        exact ⟨hy, hx, by simp only [hc, hn], by have := nf.isLt; simp only [hc]; omega⟩
  next => cases h

/-- An accepted scan header names one to four components (R177). -/
theorem readScan_wf {l : Half} {p : List Byte} {o : ScanOperands} (hp : p.length + 2 = l.toNat)
    (h : readScan l p = .ok o) : o.wf := by
  unfold readScan at h
  split at h
  next ns rest =>
    split at h
    · cases h
    next hns =>
      have hc : (scanComponents ns.toNat rest).1.length = ns.toNat := scanComponents_length (by simp at hp; omega)
      split at h
      next cs ss se a hcs =>
        cases h
        rw [hcs] at hc
        exact ⟨by simp only at hc ⊢; omega, by simp only at hc ⊢; omega⟩
      next => cases h
  next => cases h

/-- An accepted Huffman definition carries the symbols its counts announce, at most 256 (R191). -/
theorem readHuffDefs_wf {l : Half} {n : Nat} {p : List Byte} {defs : List HuffDef} (h : readHuffDefs l n p = .ok defs) :
    ∀ d ∈ defs, d.wf := by
  induction n generalizing p defs with
  | zero =>
    cases p with
    | nil => cases h; simp
    | cons b rest => cases h
  | succ n ih =>
    cases p with
    | nil => cases h; simp
    | cons b rest =>
      simp only [readHuffDefs] at h
      split at h
      next h16 =>
        split at h
        · cases h
        next hroom =>
          split at h
          next hi =>
            split at h
            · cases h
            next ds hds =>
              cases h
              refine List.forall_mem_cons.2 ⟨?_, ih hds⟩
              simp only [not_or, not_lt, huffMaxSymbols] at hroom
              exact ⟨by simpa [symbolCount, countSymbols] using hroom.2, hroom.1⟩
          next => cases h
      next => cases h

/-- An accepted DC-class entry has its bounds in order (R192). -/
theorem readDacEntries_wf {l : Half} {p : List Byte} {es : List DacEntry} (h : readDacEntries l p = .ok es) :
    ∀ e ∈ es, e.wf := by
  induction p using readDacEntries.induct l generalizing es with
  | case1 => cases h; simp
  | case2 => cases h
  | case3 index value rest hi hb => simp [readDacEntries, hi, hb] at h
  | case4 index value rest hi hb f hr ih => simp [readDacEntries, hi, hb, hr] at h
  | case5 index value rest hi hb es' hr ih =>
    simp [readDacEntries, hi, hb, hr] at h
    subst h
    refine List.forall_mem_cons.2 ⟨fun h16 => ?_, ih hr⟩
    rw [← lowNibble_toNat, ← highNibble_toNat]
    simp only at h16 ⊢
    omega
  | case6 index value rest hi => simp [readDacEntries, hi] at h

/-! ### What the assembler writes, the reader reads back -/

theorem readFrame_encode (code : Byte) {o : FrameOperands} (hw : o.wf) :
    readFrame code (BitVec.ofNat 16 ((encodeFrame o).length + 2)) (encodeFrame o) = .ok o := by
  obtain ⟨hy, hx, hpos, hle⟩ := hw
  have hn : (BitVec.ofNat 8 o.components.length).toNat = o.components.length := by simp only [BitVec.toNat_ofNat]; omega
  have hn0 : BitVec.ofNat 8 o.components.length ≠ 0 := fun h => by rw [h] at hn; simp at hn; omega
  have hl : (BitVec.ofNat 16 ((encodeFrame o).length + 2)).toNat = 3 * o.components.length + 8 := by
    simp only [encodeFrame_length, BitVec.toNat_ofNat]; omega
  simp only [encodeFrame, halfBytes, List.cons_append, List.nil_append, readFrame, be16_halfBytes, hy, hx, hn0, or_self,
    if_false, hn, frameComponents_encode]
  exact if_neg (not_not_intro hl)

theorem readScan_encode {o : ScanOperands} (hw : o.wf) :
    readScan (BitVec.ofNat 16 ((encodeScan o).length + 2)) (encodeScan o) = .ok o := by
  obtain ⟨hpos, hle⟩ := hw
  have hn : (BitVec.ofNat 8 o.components.length).toNat = o.components.length := by simp only [BitVec.toNat_ofNat]; omega
  have hl : (BitVec.ofNat 16 ((encodeScan o).length + 2)).toNat = 2 * o.components.length + 6 := by
    simp only [encodeScan_length, BitVec.toNat_ofNat]; omega
  generalize BitVec.ofNat 16 ((encodeScan o).length + 2) = l at hl ⊢
  simp only [encodeScan, List.cons_append, readScan, hn, scanComponents_encode, highNibble_pack, lowNibble_pack]
  exact if_neg (by omega)

theorem readQuantDefs_encode (l : Half) {defs : List QuantDef} (hw : ∀ d ∈ defs, d.wf) {n : Nat}
    (hn : (defs.flatMap encodeQuantDef).length ≤ n) : readQuantDefs l n (defs.flatMap encodeQuantDef) = .ok defs := by
  induction defs generalizing n with
  | nil => cases n <;> rfl
  | cons d ds ih =>
    obtain ⟨⟨hlen, hbyte⟩, hds⟩ := List.forall_mem_cons.1 hw
    set cs := d.coeffs.flatMap (encodeCoefficient d.precision) with hcs
    have hbytes : cs.length = coefficientBytes d.precision := by
      rw [hcs, encodeCoefficients_length, hlen, coefficientBytes]; split <;> rfl
    have ht : (BitVec.ofNat 4 d.table.val).toNat = d.table.val := by simp only [BitVec.toNat_ofNat]; omega
    simp only [List.flatMap_cons, encodeQuantDef, List.cons_append, List.length_cons, List.length_append] at hn
    obtain ⟨n, rfl⟩ : ∃ m, n = m + 1 := ⟨n - 1, by omega⟩
    have ih := ih hds (n := n) (by omega)
    simp only [List.flatMap_cons, encodeQuantDef, List.cons_append, readQuantDefs, lowNibble_pack, highNibble_pack, ht,
      d.table.isLt, dite_true, ← hcs, ← hbytes, List.drop_left, List.take_left, ih, List.length_append]
    rw [if_neg (by omega), hcs, coefficients_encode _ _ hbyte]

theorem readHuffDefs_encode (l : Half) {defs : List HuffDef} (hw : ∀ d ∈ defs, d.wf) {n : Nat}
    (hn : (defs.flatMap encodeHuffDef).length ≤ n) : readHuffDefs l n (defs.flatMap encodeHuffDef) = .ok defs := by
  induction defs generalizing n with
  | nil => cases n <;> rfl
  | cons d ds ih =>
    obtain ⟨⟨hlen, hmax⟩, hds⟩ := List.forall_mem_cons.1 hw
    have hc : (BitVec.ofNat 4 d.bank.val).toNat = d.bank.val := by simp only [BitVec.toNat_ofNat]; omega
    have ht : (BitVec.ofNat 4 d.table.val).toNat = d.table.val := by simp only [BitVec.toNat_ofNat]; omega
    simp only [List.flatMap_cons, encodeHuffDef, List.cons_append, List.length_cons, List.length_append] at hn
    obtain ⟨n, rfl⟩ : ∃ m, n = m + 1 := ⟨n - 1, by omega⟩
    have ih := ih hds (n := n) (by omega)
    have h16 : d.counts.toList.length = 16 := Vector.length_toList
    have hcount : countSymbols d.counts.toList = d.values.length := hlen.symm
    have htake : (d.counts.toList ++ (d.values ++ ds.flatMap encodeHuffDef)).take 16 = d.counts.toList :=
      List.take_left' h16
    have hdrop : (d.counts.toList ++ (d.values ++ ds.flatMap encodeHuffDef)).drop 16 =
        d.values ++ ds.flatMap encodeHuffDef := List.drop_left' h16
    simp only [List.flatMap_cons, encodeHuffDef, List.cons_append, List.append_assoc, readHuffDefs, lowNibble_pack,
      highNibble_pack, hc, ht, htake, hcount, ← List.drop_drop, hdrop, List.drop_left, List.take_left, ih,
      d.bank.isLt, d.table.isLt, and_self, dite_true, List.length_append, h16]
    rw [dif_pos (by omega), if_neg (by simp only [huffMaxSymbols]; omega)]
    rfl

theorem readDacEntries_encode (l : Half) {es : List DacEntry} (hw : ∀ e ∈ es, e.wf) :
    readDacEntries l (es.flatMap encodeDacEntry) = .ok es := by
  induction es with
  | nil => rfl
  | cons e es ih =>
    obtain ⟨he, hes⟩ := List.forall_mem_cons.1 hw
    have hi : (BitVec.ofNat 8 e.index.val).toNat = e.index.val := by simp only [BitVec.toNat_ofNat]; omega
    have hord : ¬(e.index.val < 16 ∧ (highNibble e.value).toNat < (lowNibble e.value).toNat) := fun ⟨h16, hlt⟩ => by
      have := he h16
      rw [highNibble_toNat, lowNibble_toNat] at hlt
      omega
    simp only [List.flatMap_cons, encodeDacEntry, List.cons_append, List.nil_append, readDacEntries, hi, e.index.isLt,
      dite_true, hord, if_false, ih hes]

end Sys2Proof.Machine

/-! SUPPORT. What a step can do to the registers, said once: it is RESET_STREAM's, or it writes no register that belongs to a
decoder, or READ_MARKERS dispatches a marker in it (`10_state.md` R41, `44_marker_reader.md` R281). -/

namespace Sys2Proof.Machine

/-- `t` holds the reader state, the seen flags and the frame, scan, Huffman and arithmetic registers of `s`. -/
structure SameRegisters (s t : State) : Prop where
  rstate          : t.rstate = s.rstate
  sawStartOfImage : t.sawStartOfImage = s.sawStartOfImage
  sawFrameHeader  : t.sawFrameHeader = s.sawFrameHeader
  frame           : t.frame = s.frame
  scan            : t.scan = s.scan
  scanCount       : t.scanCount = s.scanCount
  huff            : t.huff = s.huff
  arith           : t.arith = s.arith

/-- A state that differs from `s` in other fields only. -/
theorem SameRegisters.of_eq {s t : State}
    (h : t = { s with
      pos := t.pos, pendingMarker := t.pendingMarker, latch := t.latch, discardedByteCount := t.discardedByteCount
      nextRestartIndex := t.nextRestartIndex, restartInterval := t.restartInterval, quant := t.quant
      colorSpace := t.colorSpace, jfif := t.jfif, adobe := t.adobe, events := t.events, source := t.source
      inputs := t.inputs, result := t.result, activity := t.activity }) : SameRegisters s t := by
  constructor <;> rw [h]

theorem SameRegisters.trans {s u t : State} (h : SameRegisters s u) (h' : SameRegisters u t) : SameRegisters s t :=
  ⟨h'.rstate.trans h.rstate, h'.sawStartOfImage.trans h.sawStartOfImage, h'.sawFrameHeader.trans h.sawFrameHeader,
    h'.frame.trans h.frame, h'.scan.trans h.scan, h'.scanCount.trans h.scanCount, h'.huff.trans h.huff,
    h'.arith.trans h.arith⟩

/-- From `s` to `t` no decoder has run and no reset: the decoders' registers stand, `pos` has not gone back and the log has
only grown. -/
structure Quiet (s t : State) : Prop extends SameRegisters s t where
  quant  : t.quant = s.quant
  pos    : s.pos.toNat ≤ t.pos.toNat
  events : s.events <+: t.events

theorem Quiet.trans {s u t : State} (h : Quiet s u) (h' : Quiet u t) : Quiet s t :=
  ⟨h.toSameRegisters.trans h'.toSameRegisters, h'.quant.trans h.quant, h.pos.trans h'.pos, h.events.trans h'.events⟩

/-- What the commands, the scanner and the environment may write between them. -/
theorem Quiet.of_eq {s t : State}
    (h : t = { s with
      pos := t.pos, pendingMarker := t.pendingMarker, latch := t.latch, discardedByteCount := t.discardedByteCount
      nextRestartIndex := t.nextRestartIndex, colorSpace := t.colorSpace, events := t.events, source := t.source
      inputs := t.inputs, result := t.result, activity := t.activity })
    (hpos : s.pos.toNat ≤ t.pos.toNat) (hevents : s.events <+: t.events) : Quiet s t :=
  ⟨.of_eq (by rw [h]), by rw [h], hpos, hevents⟩

/-- The same where `pos` and the log are left alone too. -/
theorem Quiet.of_eq_kept {s t : State}
    (h : t = { s with
      pendingMarker := t.pendingMarker, latch := t.latch, discardedByteCount := t.discardedByteCount
      nextRestartIndex := t.nextRestartIndex, colorSpace := t.colorSpace, source := t.source
      inputs := t.inputs, result := t.result, activity := t.activity }) : Quiet s t :=
  .of_eq (by rw [h]) (by rw [h]) (by rw [h])

theorem Acquired.quiet {s u : State} (h : Acquired s u) : Quiet s u := .of_eq (by rw [h.frame]) h.forward h.log

theorem quiet_of_settleRestart {s t : State} (h : s.settleRestart = .next t) : Quiet s t := by
  obtain ⟨ht, hlog⟩ := State.settleRestart_frame h
  exact .of_eq (by rw [ht]) (by rw [ht]) hlog

theorem quiet_of_restartFound {s t : State} {phase : RestartPhase} (h : s.restartFound phase = .next t) : Quiet s t := by
  obtain ⟨ht, hlog⟩ := State.restartFound_frame h
  exact .of_eq (by rw [ht]) (by rw [ht]) hlog

/-- A command but RESET_STREAM is quiet. -/
theorem quiet_of_command {s t : State} {code : BitVec 2} (hne : code ≠ 1) (h : exec (decodeCommand code) s = .next t) :
    Quiet s t := by
  rcases Laws.decodeCommand_cases code with hc | hc | hc | hc <;> rw [hc] at h
  · obtain ⟨-, rfl⟩ := execNop_next.1 h
    exact .of_eq_kept rfl
  · exact absurd hc (by revert hne; revert code; decide)
  · obtain ⟨-, ⟨-, rfl⟩ | ⟨-, rfl⟩⟩ := execReadMarkers_next.1 h <;> exact .of_eq_kept rfl
  · obtain ⟨-, ⟨-, rfl⟩ | ⟨-, -, -, rfl⟩ | ⟨-, -, -, h⟩⟩ := execReadRestartMarker_next.1 h
    · exact .of_eq_kept rfl
    · exact .of_eq_kept rfl
    · exact quiet_of_settleRestart h

/-- READ_MARKERS runs, and the step from `s` to `t` dispatches the marker pending in `u`. -/
structure Dispatched (s u t : State) : Prop where
  running  : ∃ run, s.activity = .reading run
  acquired : Acquired s u
  start    : s.rstate ≠ .awaitingStartOfImage ∨ u = s ∨ u.pendingMarker = startOfImageCode
  run      : exec (decodeCode u.pendingMarker) u = .next t
  fetched  : fetch s = .instr (decodeCode u.pendingMarker) u

theorem Dispatched.isMarker {s u t : State} (h : Dispatched s u t) : isMarker (decodeCode u.pendingMarker) = true :=
  decodeCode_isMarker h.acquired.some h.acquired.legal

/-- The step takes RESET_STREAM. -/
abbrev State.TakesReset (s : State) : Prop := s.activity = .idle ∧ s.inputs.head? = some (.command 1)

theorem quiet_of_step_idle {s t : State} (ha : s.activity = .idle) (hr : ¬s.TakesReset) (h : step s = .next t) :
    Quiet s t := by
  rcases step_idle ha h with ⟨-, rfl⟩ | ⟨code, rest, hin, h⟩ | ⟨bs, rest, -, rfl⟩ | ⟨n, rest, -, -, rfl⟩ | ⟨rest, -, rfl⟩ |
    ⟨n, rest, -, -, -, hroom, rfl⟩ | ⟨code, rest, -, -, -, -, -, rfl⟩ | ⟨v, rest, -, rfl⟩
  · exact .of_eq_kept rfl
  · have hne : code ≠ 1 := fun hc => hr ⟨ha, by rw [hin, hc]; rfl⟩
    exact Quiet.trans (.of_eq_kept rfl) (quiet_of_command hne h)
  · exact .of_eq_kept rfl
  · exact .of_eq_kept rfl
  · exact .of_eq_kept rfl
  · exact .of_eq rfl (by rw [toNat_ofNat_pos hroom]; omega) List.prefix_rfl
  · exact .of_eq_kept rfl
  · exact .of_eq_kept rfl

theorem step_reading_cases {s t : State} {run : Nat} (ha : s.activity = .reading run) (h : step s = .next t) :
    Quiet s t ∨ ∃ u, Dispatched s u t := by
  cases step_reading_next ha h with
  | suspended => exact .inl (.of_eq_kept rfl)
  | wrong => exact .inl (.of_eq_kept rfl)
  | garbage _ _ _ hroom => exact .inl (.of_eq rfl (by rw [toNat_ofNat_pos hroom]; omega) List.prefix_rfl)
  | fill => exact .inl (.of_eq_kept rfl)
  | stuff _ _ _ hroom => exact .inl (.of_eq rfl (by rw [toNat_ofNat_pos hroom]; omega) List.prefix_rfl)
  | marker acquired start h fetched => exact .inr ⟨_, ⟨run, ha⟩, acquired, start, h, fetched⟩

theorem quiet_of_step_restarting {s t : State} {phase : RestartPhase} {run : Nat} (ha : s.activity = .restarting phase run)
    (h : step s = .next t) : Quiet s t := by
  cases step_restarting_next ha h with
  | suspended => exact .of_eq_kept rfl
  | garbage _ hroom => exact .of_eq rfl (by rw [toNat_ofNat_pos hroom]; omega) List.prefix_rfl
  | fill => exact .of_eq_kept rfl
  | stuff _ hroom => exact .of_eq rfl (by rw [toNat_ofNat_pos hroom]; omega) List.prefix_rfl
  | found acquired h => exact acquired.quiet.trans (quiet_of_restartFound h)

/-- Every step that does not take RESET_STREAM is quiet, or dispatches a marker. -/
theorem step_cases {s t : State} (hr : ¬s.TakesReset) (h : step s = .next t) : Quiet s t ∨ ∃ u, Dispatched s u t := by
  cases ha : s.activity with
  | idle => exact .inl (quiet_of_step_idle ha hr h)
  | reading run => exact step_reading_cases ha h
  | restarting phase run => exact .inl (quiet_of_step_restarting ha h)

/-- What the step that takes RESET_STREAM leaves (R288). -/
theorem step_reset {s t : State} (hr : s.TakesReset) (h : step s = .next t) :
    t = { s with inputs := s.inputs.tail }.resetStream.finish .resetDone := by
  obtain ⟨ha, hin⟩ := hr
  obtain ⟨rest, hin⟩ : ∃ rest, s.inputs = .command 1 :: rest := by
    cases hs : s.inputs with
    | nil => simp [hs] at hin
    | cons i rest => rw [hs] at hin; exact ⟨rest, by rw [Option.some.inj hin]⟩
  have hf : fetch s = fetchInput s s.inputs := by simp [fetch, ha]
  rw [hin] at hf
  rw [step_of_instr hf] at h
  rw [(execResetStream_next.1 h).2, hin]; rfl

/-! ### What a dispatched marker writes -/

/-- A dispatched marker leaves what its decoder wrote, or a suspension or a fatal error that write no register. -/
theorem exec_marker_cases {i : Instr} {u t : State} (hi : isMarker i = true) (h : exec i u = .next t) :
    (∃ v g, Effect u i v g ∧ t = Decoded.after v g) ∨ Quiet u t := by
  rcases exec_marker_next hi h with he | rfl | ⟨f, rfl⟩
  · exact .inl he
  · exact .inr (.of_eq_kept rfl)
  · exact .inr (.of_eq_kept rfl)

/-- The dispatcher's end of a decoder writes no register (R281). -/
theorem Decoded.after_quiet (v : State) (g : Signal) : Quiet v (Decoded.after v g) := by
  cases g <;> exact .of_eq_kept rfl

end Sys2Proof.Machine

/-! SUPPORT. Every step keeps the invariant of R40 (`10_state.md`): the part of it that speaks of the decoders' registers,
decoder by decoder, then the ends of a command, the scanner's turns and the environment. -/

namespace Sys2Proof.Machine

/-! ### The part of the invariant that decoders can break -/

/-- What the invariant says of the decoders' registers. -/
structure State.RegisterInv (s : State) : Prop where
  reader : s.ReaderInv
  frame  : s.FrameInv
  scan   : s.ScanInv
  huff   : ∀ (c : Fin 2) (t : Fin 4), s.huff[c][t].Ok
  arith  : s.sawStartOfImage = true → s.arith.Ordered

theorem State.Inv.registers {s : State} (h : s.Inv) : s.RegisterInv := ⟨h.reader, h.frame, h.scan, h.huff, h.arith⟩

theorem State.RegisterInv.inv {s : State} (h : s.RegisterInv) (memory : Memory.wf s.source.bytes)
    (pending : s.PendingInv) (latch : s.LatchInv) (activity : s.ActivityInv) : s.Inv :=
  ⟨memory, h.reader, pending, latch, h.frame, h.scan, h.huff, h.arith, activity⟩

theorem State.RegisterInv.transfer {s t : State} (hi : s.RegisterInv) (h : SameRegisters s t) : t.RegisterInv := by
  obtain ⟨hr, hsoi, hsof, hf, hs, hn, hh, ha⟩ := h
  obtain ⟨reader, frame, scan, huff, arith⟩ := hi
  refine ⟨?_, ?_, ?_, ?_, ?_⟩
  · simpa only [State.ReaderInv, hr, hsoi, hsof, hn] using reader
  · simpa only [State.FrameInv, hsof, hf] using frame
  · simpa only [State.ScanInv, hr, hs, hf] using scan
  · simpa only [hh] using huff
  · simpa only [hsoi, ha] using arith

/-- What is left to show of a state that holds the registers of a safe one. -/
theorem State.Inv.transfer {s t : State} (hi : s.Inv) (h : SameRegisters s t) (memory : Memory.wf t.source.bytes)
    (pending : t.PendingInv) (latch : t.LatchInv) (activity : t.ActivityInv) : t.Inv :=
  (hi.registers.transfer h).inv memory pending latch activity

/-! ### The reader state and the seen flags (R40 (a) to (e)) -/

theorem State.ReaderInv.not_sawFrameHeader {s : State} (h : s.ReaderInv) (hs : s.sawStartOfImage = false) :
    s.sawFrameHeader = false := by
  obtain ⟨-, -, -, -, hseen⟩ := h
  cases hf : s.sawFrameHeader with
  | false => rfl
  | true => rw [hseen hf] at hs; cases hs

theorem State.ReaderInv.scanCount_zero {s : State} (h : s.ReaderInv) (hs : s.sawFrameHeader = false) :
    s.scanCount = 0 := by
  obtain ⟨-, -, hframe, hscan, -⟩ := h
  by_contra hn
  have := hframe.1 (.inr (hscan.2 hn))
  rw [hs] at this; cases this

theorem State.ReaderInv.sawStartOfImage {s : State} (h : s.ReaderInv) (hr : s.rstate ≠ .awaitingStartOfImage) :
    s.sawStartOfImage = true := by
  obtain ⟨hstart, -, -, -, -⟩ := h
  cases hs : s.sawStartOfImage with
  | false => exact absurd (hstart.2 hs) hr
  | true => rfl

theorem State.ReaderInv.haveStartOfImage {s : State} (h : s.ReaderInv) (hr : s.rstate ≠ .awaitingStartOfImage)
    (hf : s.sawFrameHeader = false) : s.rstate = .haveStartOfImage := by
  have hs := h.sawStartOfImage hr
  obtain ⟨-, hhave, -, -, -⟩ := h
  exact hhave.2 ⟨hs, hf⟩

/-- The scan counter of an accepted scan header is not 0 (R31). -/
theorem sat32Add_one_ne_zero (x : Count) : sat32Add x 1 ≠ 0 := by
  intro h
  have : min (x.toNat + 1) 0xFFFFFFFF % 2 ^ 32 = 0 := by simpa [sat32Add] using congrArg BitVec.toNat h
  omega

/-- Every component that an accepted scan header names is marked as named (R29, R177). -/
theorem assignTables_scanned {frame : List Component} {js : List Nat} {cs : List ScanComponent}
    (hlen : js.length = cs.length) {j : Nat} (hj : j ∈ js) (hlt : j < frame.length) :
    ((assignTables frame (js.zip cs))[j]?.map Component.scanned) = some true := by
  rw [assignTables_get _ _ _ hlt]
  cases hf : (js.zip cs).reverse.find? (fun jc => jc.1 == j) with
  | some jc => rfl
  | none =>
    have hj : j ∈ (js.zip cs).map Prod.fst := by rwa [List.map_fst_zip hlen.le]
    obtain ⟨jc, hmem, rfl⟩ := List.mem_map.1 hj
    have := List.find?_eq_none.1 hf jc (List.mem_reverse.2 hmem)
    simp at this

theorem arithDefaults_ordered : ArithRegs.defaults.Ordered := by decide

/-- A table that an accepted definition describes (R191). -/
theorem defineHuff_foldl_ok {defs : List HuffDef} {h : HuffRegs} (hw : ∀ d ∈ defs, d.wf)
    (hh : ∀ (c : Fin 2) (t : Fin 4), h[c][t].Ok) (c : Fin 2) (t : Fin 4) : (defs.foldl defineHuff h)[c][t].Ok := by
  rw [defineHuff_foldl]
  split
  next => exact hh c t
  next d hd =>
    obtain ⟨hvalues, hmax⟩ := hw d (List.mem_reverse.1 (List.mem_of_find?_eq_some hd))
    have hn : (BitVec.ofNat 9 (symbolCount d.counts.toList)).toNat = symbolCount d.counts.toList := by
      simp only [BitVec.toNat_ofNat]; omega
    intro _
    simp only [hn]
    exact ⟨hvalues, trivial, hmax⟩

/-- Accepted entries keep the bounds in order (R36, R192). -/
theorem arithApply_foldl_ordered {es : List DacEntry} {a : ArithRegs} (hw : ∀ e ∈ es, e.wf) (ha : a.Ordered) :
    (es.foldl ArithRegs.apply a).Ordered := fun i => by
  obtain ⟨hbounds, -⟩ := ArithRegs.apply_foldl es a i
  split at hbounds
  next =>
    obtain ⟨hlow, hhigh⟩ := hbounds
    rw [hlow, hhigh]; exact ha i
  next e he =>
    obtain ⟨hlow, hhigh⟩ := hbounds
    have hidx : e.index.val = i.val := by simpa using List.find?_some he
    have hord := hw e (List.mem_reverse.1 (List.mem_of_find?_eq_some he)) (by omega)
    rw [hlow, hhigh, BitVec.le_def, lowNibble_toNat, highNibble_toNat]
    exact hord

/-! ### Decoders -/

section Decoders
variable {s : State} (hi : s.RegisterInv)
include hi

/-- The start of image (R161): the bounds it writes are in order. -/
theorem State.RegisterInv.startImage (hs : s.sawStartOfImage = false) : s.startImage.RegisterInv := by
  have hf := hi.reader.not_sawFrameHeader hs
  have hn := hi.reader.scanCount_zero hf
  refine ⟨?_, ?_, ?_, hi.huff, fun _ => ?_⟩
  · simp [State.ReaderInv, hf, hn]
  · simpa [State.FrameInv, hf] using hi.frame
  · simp [State.ScanInv]
  · exact arithDefaults_ordered

/-- An accepted frame header (R162). -/
theorem State.RegisterInv.writeFrame {code : Byte} {o : FrameOperands} (hw : o.wf) (hc : code ∈ acceptedFrameCodes)
    (hr : s.rstate ≠ .awaitingStartOfImage) (fresh : s.sawFrameHeader = false) : (s.writeFrame code o).RegisterInv := by
  obtain ⟨hy, hx, hpos, hle⟩ := hw
  have hs := hi.reader.sawStartOfImage hr
  have hn := hi.reader.scanCount_zero fresh
  refine ⟨?_, ?_, ?_, hi.huff, hi.arith⟩
  · simp [State.ReaderInv, hs, hn]
  · simp only [State.FrameInv, State.writeFrame_sawFrameHeader, if_true, State.writeFrame_frame, allocateComponents_length,
      BitVec.toNat_ofNat]
    exact ⟨hc, hy, hx, hpos, by omega⟩
  · simp [State.ScanInv]

/-- An accepted scan header (R177). -/
theorem State.RegisterInv.writeScan {o : ScanOperands} {js : List Nat} (hw : o.wf) (seen : s.sawFrameHeader = true)
    (hjs : resolveSelectors s.frame.components o.components = .ok js) : (s.writeScan o js).RegisterInv := by
  obtain ⟨hpos, hle⟩ := hw
  obtain ⟨hlen, hlt⟩ := resolveSelectors_lt _ _ _ hjs
  obtain ⟨-, -, -, -, hsaw⟩ := hi.reader
  have hframe : _ := hi.frame
  rw [State.FrameInv, if_pos seen] at hframe
  obtain ⟨hcode, hy, hx, hcs, hcount⟩ := hframe
  have hn : (BitVec.ofNat 3 o.components.length).toNat = o.components.length := by simp only [BitVec.toNat_ofNat]; omega
  refine ⟨?_, ?_, fun _ => ?_, hi.huff, hi.arith⟩
  · simp [State.ReaderInv, seen, hsaw seen]
    exact sat32Add_one_ne_zero _
  · simp only [State.FrameInv, State.writeScan_sawFrameHeader, seen, if_true, State.writeScan_frame, assignTables_length]
    exact ⟨hcode, hy, hx, hcs, hcount⟩
  · simp only [State.writeScan_scan, State.writeScan_frame, hn, List.length_map, List.forall_mem_map]
    refine ⟨hpos, hle, hlen, fun j hj => ?_⟩
    have hjlt := hlt j hj
    have hj8 : (BitVec.ofNat 8 j).toNat = j := by
      have := s.frame.componentCount.isLt
      simp only [BitVec.toNat_ofNat]; omega
    rw [hj8]
    exact assignTables_scanned hlen hj hjlt

/-- Accepted Huffman definitions (R191). -/
theorem State.RegisterInv.defineHuff {defs : List HuffDef} (hw : ∀ d ∈ defs, d.wf) :
    { s with huff := defs.foldl Machine.defineHuff s.huff }.RegisterInv :=
  ⟨hi.reader, hi.frame, hi.scan, defineHuff_foldl_ok hw hi.huff, hi.arith⟩

/-- Accepted arithmetic-conditioning entries (R192). -/
theorem State.RegisterInv.applyArith {es : List DacEntry} (hw : ∀ e ∈ es, e.wf) :
    { s with arith := es.foldl ArithRegs.apply s.arith }.RegisterInv :=
  ⟨hi.reader, hi.frame, hi.scan, hi.huff, fun hs => arithApply_foldl_ordered hw (hi.arith hs)⟩

end Decoders

/-- The payload of a whole segment has the length that its length field declares. -/
theorem State.Whole.payload_length {s : State} {l : Half} (h : s.Whole l) : (s.payload l).length + 2 = l.toNat := by
  have := h.two
  rw [State.payload, ByteSource.take_length]; omega

theorem frameCode_accepted {i : Instr} {code : Byte} (h : frameCode i = some code) : code ∈ acceptedFrameCodes := by
  cases i <;> cases h <;> decide

/-- Every decoder that is done keeps the invariant, if only the start of image is decoded before one has been seen. -/
theorem Effect.registers {s u : State} {i : Instr} {g : Signal} (h : Effect s i u g) (hi : s.RegisterInv)
    (hr : s.rstate ≠ .awaitingStartOfImage ∨ i = .soi) : u.RegisterInv := by
  cases h with
  | plain => exact hi
  | eoi => exact hi
  | soi hs => exact hi.startImage hs
  | skip => exact hi.transfer (.of_eq rfl)
  | frame hc fresh whole read =>
    have hr : s.rstate ≠ .awaitingStartOfImage := hr.resolve_right fun h => by rw [h] at hc; cases hc
    exact (hi.writeFrame (readFrame_wf whole.payload_length read) (frameCode_accepted hc) hr fresh).transfer (.of_eq rfl)
  | scan seen whole read named =>
    exact (hi.writeScan (readScan_wf whole.payload_length read) seen named).transfer (.of_eq rfl)
  | quant => exact hi.transfer (.of_eq rfl)
  | huff whole read => exact (hi.defineHuff (readHuffDefs_wf read)).transfer (.of_eq rfl)
  | arith whole read => exact (hi.applyArith (readDacEntries_wf read)).transfer (.of_eq rfl)
  | interval => exact hi.transfer (.of_eq rfl)
  | jfif => exact hi.transfer (.of_eq (by rw [State.warnThumbnail_eq, State.warnMajor_eq]; rfl))
  | adobe => exact hi.transfer (.of_eq rfl)

/-- No decoder that is done touches the stream (R71). -/
theorem Effect.source {s u : State} {i : Instr} {g : Signal} (h : Effect s i u g) : u.source = s.source := by
  cases h with
  | jfif => simp
  | _ => rfl

/-! ### The command in progress -/

theorem State.activityInv_of_idle {s : State} (h : s.activity = .idle) : s.ActivityInv := by
  simp [State.ActivityInv, h, Activity.run]

theorem State.activityInv_of_reading {s : State} (h : s.activity = .reading 0) : s.ActivityInv := by
  simp [State.ActivityInv, h, Activity.run]

/-- A running command has found the latch clear, and leaves it so (R25, R40 (g)). -/
theorem State.LatchInv.clear {s : State} (h : s.LatchInv) (ha : s.activity ≠ .idle) : s.latch = FatalLatch.clear := by
  obtain ⟨hclear, hidle⟩ := h
  cases hf : s.latch.fatal with
  | false => exact hclear hf
  | true => exact absurd (hidle hf) ha

theorem State.latchInv_of_clear {s : State} (h : s.latch = FatalLatch.clear) : s.LatchInv :=
  ⟨fun _ => h, fun hf => by rw [h] at hf; cases hf⟩

/-- An idle core meets the invariant of the latch by the first half of it. -/
theorem State.latchInv_of_idle {s : State} (h : s.latch.fatal = false → s.latch = FatalLatch.clear)
    (ha : s.activity = .idle) : s.LatchInv := ⟨h, fun _ => ha⟩

/-! ### Ends of a command -/

section Ends
variable {s : State} (hi : s.Inv)
include hi

theorem State.Inv.finish (r : Result) : (s.finish r).Inv :=
  hi.transfer (.of_eq rfl) hi.memory hi.pending
    (State.latchInv_of_idle hi.latch.1 rfl) (State.activityInv_of_idle rfl)

theorem State.Inv.raiseFatal (f : FatalError) : (s.raiseFatal f).Inv :=
  hi.transfer (.of_eq rfl) hi.memory hi.pending
    (State.latchInv_of_idle (fun h => by cases h) rfl) (State.activityInv_of_idle rfl)

end Ends

/-! ### A marker is pending -/

/-- A marker is pending under a command in progress, acquired in this step or before. -/
structure State.MarkerHeld (u : State) : Prop where
  registers : u.RegisterInv
  memory    : Memory.wf u.source.bytes
  latch     : u.latch = FatalLatch.clear
  some      : u.pendingMarker ≠ 0
  legal     : u.pendingMarker ≠ 0xFF

theorem Acquired.held {s u : State} (h : Acquired s u) (hi : s.Inv) (ha : s.activity ≠ .idle) : u.MarkerHeld :=
  ⟨hi.registers.transfer h.quiet.toSameRegisters, by rw [h.frame]; exact hi.memory, by rw [h.frame]; exact hi.latch.clear ha,
    h.some, h.legal⟩

section Held
variable {u t : State} (h : u.MarkerHeld)
include h

/-- The dispatcher's end of a decoder that is done (R281). -/
theorem State.MarkerHeld.after {i : Instr} {v : State} {g : Signal} (he : Effect u i v g) (ha : u.activity = .reading 0)
    (hr : u.rstate ≠ .awaitingStartOfImage ∨ i = .soi) : (Decoded.after v g).Inv := by
  have hmem : Memory.wf (Decoded.after v g).source.bytes := by
    rw [show (Decoded.after v g).source = v.source by cases g <;> rfl, he.source]; exact h.memory
  have hlatch : (Decoded.after v g).LatchInv :=
    State.latchInv_of_clear (by rw [Decoded.after_latch, he.latch]; exact h.latch)
  have hactivity : (Decoded.after v g).ActivityInv := by
    cases g with
    | proceed => exact State.activityInv_of_reading (he.activity.trans ha)
    | scanStart => exact State.activityInv_of_idle rfl
    | endOfStream => exact State.activityInv_of_idle rfl
  have hregisters := (he.registers h.registers hr).transfer (Decoded.after_quiet v g).toSameRegisters
  exact hregisters.inv hmem (by simp [State.PendingInv]) hlatch hactivity

/-- Past the start of image, the state a marker is dispatched in is itself safe. -/
theorem State.MarkerHeld.inv (ha : u.activity = .reading 0) (hr : u.rstate ≠ .awaitingStartOfImage) : u.Inv :=
  h.registers.inv h.memory ⟨h.legal, fun hs => absurd hs hr⟩ (State.latchInv_of_clear h.latch)
    (State.activityInv_of_reading ha)

/-- The first start of image is always accepted (R161). -/
theorem State.MarkerHeld.exec_soi (hr : u.rstate = .awaitingStartOfImage) (hn : exec .soi u = .next t) :
    t = Decoded.after u.startImage .proceed ∧ Effect u .soi u.startImage .proceed := by
  obtain ⟨hstart, -, -, -, -⟩ := h.registers.reader
  have hs := hstart.1 hr
  have hd : decoderOf .soi u = .done u.startImage .proceed := by simp [decoderOf, decodeSoi, hs]
  rw [exec_eq_complete rfl, hd, State.complete_done] at hn
  exact ⟨(Host.Outcome.next.inj hn).symm, .soi hs⟩

/-- A marker that READ_MARKERS dispatches leaves a safe state. -/
theorem State.MarkerHeld.dispatch (ha : u.activity = .reading 0)
    (hr : u.rstate ≠ .awaitingStartOfImage ∨ u.pendingMarker = startOfImageCode)
    (hn : exec (decodeCode u.pendingMarker) u = .next t) : t.Inv := by
  by_cases hstart : u.rstate = .awaitingStartOfImage
  · rw [hr.resolve_left (not_not_intro hstart)] at hn
    obtain ⟨rfl, he⟩ := h.exec_soi hstart hn
    exact h.after he ha (.inr rfl)
  · have hu := h.inv ha hstart
    rcases exec_marker_next (decodeCode_isMarker h.some h.legal) hn with ⟨v, g, he, rfl⟩ | rfl | ⟨f, rfl⟩
    · exact h.after he ha (.inl hstart)
    · exact hu.finish .suspended
    · exact hu.raiseFatal f

/-- READ_RESTART_MARKER's end (R320). -/
theorem State.MarkerHeld.restartOk (hs : u.rstate = .inScan) : u.restartOk.Inv :=
  State.RegisterInv.inv (h.registers.transfer (.of_eq rfl)) h.memory
    ⟨h.legal, fun hr => by rw [State.restartOk_rstate, hs] at hr; cases hr⟩ (State.latchInv_of_clear h.latch)
    (State.activityInv_of_idle rfl)

/-- The same where the marker is consumed (R320, R325). -/
theorem State.MarkerHeld.restartOk_consumed : ({ u with pendingMarker := 0 }.restartOk).Inv :=
  State.RegisterInv.inv (h.registers.transfer (.of_eq rfl)) h.memory
    ⟨by simp, fun _ => rfl⟩ (State.latchInv_of_clear h.latch) (State.activityInv_of_idle rfl)

theorem State.MarkerHeld.resyncTurn (hs : u.rstate = .inScan) (hn : u.resyncTurn = .next t) : t.Inv := by
  rcases State.resyncTurn_next.1 hn with ⟨hc, rfl⟩ | ⟨-, rfl⟩ | ⟨-, rfl⟩
  · exact State.RegisterInv.inv (h.registers.transfer (.of_eq rfl)) h.memory
      ⟨h.legal, fun hr => by simp [hs] at hr⟩ (State.latchInv_of_clear h.latch)
      ⟨fun hrun => absurd rfl hrun, hs, h.some, hc⟩
  · exact h.restartOk hs
  · exact h.restartOk_consumed

theorem State.MarkerHeld.emit (kind : EventKind) (a b : Count) : (u.emit kind a b).MarkerHeld :=
  ⟨h.registers.transfer (.of_eq rfl), h.memory, h.latch, h.some, h.legal⟩

theorem State.MarkerHeld.settleRestart (hs : u.rstate = .inScan) (hn : u.settleRestart = .next t) : t.Inv := by
  rcases State.settleRestart_next.1 hn with ⟨-, rfl⟩ | ⟨-, hn⟩
  · exact h.restartOk_consumed
  · exact (h.emit _ _ _).resyncTurn hs hn

theorem State.MarkerHeld.restartFound {phase : RestartPhase} (hs : u.rstate = .inScan)
    (hn : u.restartFound phase = .next t) : t.Inv := by
  cases phase with
  | seeking => exact h.settleRestart hs hn
  | resyncing => exact h.resyncTurn hs hn

end Held

/-! ### The scanner's turns -/

theorem ByteSource.holds_singleton {src : ByteSource} {a : Nat} {b : Byte} : src.Holds a [b] ↔ src.peek a = some b :=
  ⟨fun h => h 0 (by simp), fun h k hk => by
    obtain rfl : k = 0 := by simpa using hk
    exact h⟩

/-- One more introducer stands behind the run (R143). -/
theorem State.holds_swallowed {s : State} {run : Nat}
    (h : run ≠ 0 → s.source.Holds s.pos.toNat (List.replicate (run + 1) introducer)) (ht : s.token run = .pair 0xFF) :
    s.source.Holds s.pos.toNat (List.replicate (run + 1 + 1) introducer) := by
  obtain ⟨hfirst, hbehind⟩ := State.token_pair.1 ht
  have hrun : s.source.Holds s.pos.toNat (List.replicate (run + 1) introducer) := by
    rcases Nat.eq_zero_or_pos run with rfl | hpos
    · exact ByteSource.holds_singleton.2 (hfirst rfl)
    · exact h hpos.ne'
  rw [List.replicate_succ']
  refine ByteSource.holds_append.2 ⟨hrun, ByteSource.holds_singleton.2 ?_⟩
  rw [List.length_replicate]; exact hbehind

/-- READ_MARKERS: a step of it leaves a safe state. -/
theorem State.Inv.step_reading {s t : State} {run : Nat} (hi : s.Inv) (ha : s.activity = .reading run)
    (h : step s = .next t) : t.Inv := by
  have hbusy : s.activity ≠ .idle := by rw [ha]; simp
  have hlatch := hi.latch.clear hbusy
  obtain ⟨hholds, hreading⟩ := hi.activity
  rw [ha] at hholds hreading
  cases step_reading_next ha h with
  | suspended => exact hi.finish .suspended
  | wrong f => exact hi.raiseFatal f
  | garbage =>
    exact hi.transfer (.of_eq rfl) hi.memory hi.pending (State.latchInv_of_clear hlatch)
      (State.activityInv_of_reading rfl)
  | fill hp hr ht =>
    exact hi.transfer (.of_eq rfl) hi.memory hi.pending (State.latchInv_of_clear hlatch)
      ⟨fun _ => State.holds_swallowed hholds ht, fun _ => ⟨hp, hr⟩⟩
  | stuff =>
    exact hi.transfer (.of_eq rfl) hi.memory hi.pending (State.latchInv_of_clear hlatch)
      (State.activityInv_of_reading rfl)
  | @marker u _ acquired start hn _ =>
    have hactivity : u.activity = .reading 0 := by
      rcases acquired.phase with rfl | hphase
      · have hrun : run = 0 := by
          by_contra hrun
          exact acquired.some (hreading hrun).1
        rw [ha, hrun]
      · rw [hphase, ha]; rfl
    have hstart : u.rstate ≠ .awaitingStartOfImage ∨ u.pendingMarker = startOfImageCode := by
      rw [acquired.quiet.rstate]
      rcases start with hr | rfl | hc
      · exact .inl hr
      · exact .inl fun hr => acquired.some (hi.pending.2 hr)
      · exact .inr hc
    exact (acquired.held hi hbusy).dispatch hactivity hstart hn

/-- READ_RESTART_MARKER: a step of it leaves a safe state. -/
theorem State.Inv.step_restarting {s t : State} {phase : RestartPhase} {run : Nat} (hi : s.Inv)
    (ha : s.activity = .restarting phase run) (h : step s = .next t) : t.Inv := by
  have hbusy : s.activity ≠ .idle := by rw [ha]; simp
  have hlatch := hi.latch.clear hbusy
  obtain ⟨hholds, hphase⟩ := hi.activity
  rw [ha] at hholds hphase
  have hscan : s.rstate = .inScan := by
    cases phase with
    | seeking => exact hphase.1
    | resyncing => exact hphase.1
  cases step_restarting_next ha h with
  | suspended => exact hi.finish .suspended
  | garbage =>
    exact hi.transfer (.of_eq rfl) hi.memory hi.pending (State.latchInv_of_clear hlatch)
      ⟨fun hrun => absurd rfl hrun, by cases phase <;> exact hphase⟩
  | fill ht =>
    exact hi.transfer (.of_eq rfl) hi.memory hi.pending (State.latchInv_of_clear hlatch)
      ⟨fun _ => State.holds_swallowed hholds ht, by cases phase <;> exact hphase⟩
  | stuff =>
    exact hi.transfer (.of_eq rfl) hi.memory hi.pending (State.latchInv_of_clear hlatch)
      ⟨fun hrun => absurd rfl hrun, by cases phase <;> exact hphase⟩
  | found acquired hn =>
    exact (acquired.held hi hbusy).restartFound (acquired.quiet.rstate.trans hscan) hn

/-! ### Between two commands -/

theorem State.entropyMayAct_iff {s : State} : s.entropyMayAct = true ↔ s.rstate = .inScan ∧ s.latch.fatal = false := by
  simp [State.entropyMayAct]

theorem State.reset_inv : State.reset.Inv where
  memory := Memory.wf_nil
  reader := by decide
  pending := by decide
  latch := by decide
  frame := rfl
  scan := fun h => by cases h
  huff := by decide
  arith := fun h => by cases h
  activity := State.activityInv_of_idle rfl

/-- RESET_STREAM keeps the tables and gives the rest its power-on value (R381). -/
theorem State.Inv.resetStream {s : State} (hi : s.Inv) : s.resetStream.Inv :=
  { State.reset_inv with huff := hi.huff }

/-- A write of an idle core's source, inputs or `colorSpace`, or of `pos`. -/
theorem State.Inv.environment {s : State} (hi : s.Inv) (ha : s.activity = .idle) (source : ByteSource) (inputs : List Input)
    (pos : Position) (colorSpace : Byte) (hm : Memory.wf source.bytes) :
    { s with source := source, inputs := inputs, pos := pos, colorSpace := colorSpace }.Inv :=
  hi.transfer (.of_eq rfl) hm hi.pending hi.latch (State.activityInv_of_idle ha)

/-- A command of an idle core. -/
theorem State.Inv.command {s t : State} {code : BitVec 2} (hi : s.Inv) (h : exec (decodeCommand code) s = .next t) :
    t.Inv := by
  rcases Laws.decodeCommand_cases code with hc | hc | hc | hc <;> rw [hc] at h
  · obtain ⟨-, rfl⟩ := execNop_next.1 h
    exact hi.finish .idle
  · obtain ⟨-, rfl⟩ := execResetStream_next.1 h
    exact hi.resetStream.finish .resetDone
  · obtain ⟨-, ⟨-, rfl⟩ | ⟨hf, rfl⟩⟩ := execReadMarkers_next.1 h
    · exact hi.finish .fatalError
    · exact hi.transfer (.of_eq rfl) hi.memory hi.pending
        (State.latchInv_of_clear (hi.latch.1 hf)) (State.activityInv_of_reading rfl)
  · obtain ⟨-, ⟨-, rfl⟩ | ⟨hf, hs, hp, rfl⟩ | ⟨hf, hs, hp, h⟩⟩ := execReadRestartMarker_next.1 h
    · exact hi.finish .fatalError
    · exact hi.transfer (.of_eq rfl) hi.memory hi.pending
        (State.latchInv_of_clear (hi.latch.1 hf)) ⟨fun hrun => absurd rfl hrun, hs, hp⟩
    · have hheld : s.MarkerHeld := ⟨hi.registers, hi.memory, hi.latch.1 hf, hp, hi.pending.1⟩
      exact hheld.settleRestart hs h

/-- A step of an idle core leaves a safe state. -/
theorem State.Inv.step_idle {s t : State} (hi : s.Inv) (ha : s.activity = .idle) (h : step s = .next t) : t.Inv := by
  rcases Machine.step_idle ha h with ⟨-, rfl⟩ | ⟨code, rest, -, h⟩ | ⟨bs, rest, -, rfl⟩ | ⟨n, rest, -, -, rfl⟩ |
    ⟨rest, -, rfl⟩ | ⟨n, rest, -, -, -, -, rfl⟩ | ⟨code, rest, -, hmay, -, -, hf, rfl⟩ | ⟨v, rest, -, rfl⟩
  · exact hi
  · exact (hi.environment ha s.source rest s.pos s.colorSpace hi.memory).command h
  · exact hi.environment ha _ rest s.pos s.colorSpace (ByteSource.fill_wf bs hi.memory)
  · exact hi.environment ha _ rest s.pos s.colorSpace hi.memory
  · exact hi.environment ha _ rest s.pos s.colorSpace hi.memory
  · exact hi.environment ha s.source rest _ s.colorSpace hi.memory
  · have hs : s.rstate = .inScan := (State.entropyMayAct_iff.1 hmay).1
    exact hi.transfer (.of_eq rfl) hi.memory ⟨hf, fun hr => by simp [hs] at hr⟩ hi.latch
      (State.activityInv_of_idle ha)
  · exact hi.environment ha s.source rest s.pos v hi.memory

/-- Every step keeps the invariant. -/
theorem State.Inv.step {s t : State} (hi : s.Inv) (h : step s = .next t) : t.Inv := by
  cases ha : s.activity with
  | idle => exact hi.step_idle ha h
  | reading run => exact hi.step_reading ha h
  | restarting phase run => exact hi.step_restarting ha h

end Sys2Proof.Machine

/-! PROOF. The state after reset is safe and every step keeps it so (`10_state.md` R40). -/

namespace Sys2Proof.Machine

/-- Settles O48. -/
theorem resetIsSafe : Obligations.ResetIsSafe := State.reset_inv

/-- Settles O49, by the command in progress: a core between two commands, READ_MARKERS, READ_RESTART_MARKER. -/
theorem stepKeepsInvariant : Obligations.StepKeepsInvariant := fun _ _ hi h => hi.step h

end Sys2Proof.Machine

/-! PROOF. What holds of the steps within a stream (`10_state.md` R22 to R46): `pos`, the event log, the reader state, the frame
registers, the tables, the latch, and what can stop a step. Each statement is read off the three cases of `step_cases`. -/

namespace Sys2Proof.Machine

/-! ### `pos` and the event log -/

/-- What every marker instruction leaves of `pos` and the log, in the step that dispatches it. -/
theorem Dispatched.forward {s u t : State} (h : Dispatched s u t) : s.pos.toNat ≤ t.pos.toNat ∧ s.events <+: t.events := by
  obtain ⟨-, -, -, hpos, hevents⟩ := exec_marker_keeps h.isMarker h.run
  exact ⟨h.acquired.forward.trans hpos, h.acquired.log.trans hevents⟩

/-- Settles O51: a dispatched marker moves `pos` forward twice, acquired and decoded, any other step at most once. -/
theorem positionNeverDecreases : Obligations.PositionNeverDecreases := by
  intro s t h hr
  rcases step_cases hr h with hq | ⟨u, hd⟩
  · exact hq.pos
  · exact hd.forward.1

/-- Settles O52: RESET_STREAM keeps the log. -/
theorem eventLogAppendOnly : Obligations.EventLogAppendOnly := by
  intro s t h
  by_cases hr : s.TakesReset
  · rw [step_reset hr h]; exact List.prefix_rfl
  · rcases step_cases hr h with hq | ⟨u, hd⟩
    · exact hq.events
    · exact hd.forward.2

/-! ### The reader state -/

/-- The reader state of `t` is that of `s` or the next one, and no seen flag of `s` is clear in `t`. -/
abbrev GoesForward (s t : State) : Prop :=
  (t.rstate = s.rstate ∨ t.rstate.code = s.rstate.code + 1 ∧ s.rstate ≠ .inScan) ∧
  (s.sawStartOfImage = true → t.sawStartOfImage = true) ∧ (s.sawFrameHeader = true → t.sawFrameHeader = true)

theorem SameRegisters.goesForward {s t : State} (h : SameRegisters s t) : GoesForward s t :=
  ⟨.inl h.rstate, fun hs => h.sawStartOfImage.trans hs, fun hs => h.sawFrameHeader.trans hs⟩

/-- A decoder moves the reader state only as R285 draws it. -/
theorem Effect.goesForward {s u : State} {i : Instr} {g : Signal} (h : Effect s i u g) (hi : s.ReaderInv)
    (hr : s.rstate ≠ .awaitingStartOfImage ∨ i = .soi) : GoesForward s u := by
  cases h with
  | soi hs =>
    obtain ⟨hstart, -, -, -, -⟩ := hi
    have hstate := hstart.2 hs
    exact ⟨.inr ⟨by rw [hstate]; rfl, by simp [hstate]⟩, fun _ => rfl, fun hf => hf⟩
  | frame hc fresh =>
    have hr : s.rstate ≠ .awaitingStartOfImage := hr.resolve_right fun h => by rw [h] at hc; cases hc
    have hstate := hi.haveStartOfImage hr fresh
    exact ⟨.inr ⟨by rw [hstate]; rfl, by simp [hstate]⟩, fun hs => hs, fun _ => rfl⟩
  | scan seen =>
    obtain ⟨-, -, hframe, -, -⟩ := hi
    refine ⟨?_, fun hs => hs, fun hf => hf⟩
    rcases hframe.2 seen with hstate | hstate
    · exact .inr ⟨by rw [hstate]; rfl, by simp [hstate]⟩
    · exact .inl hstate.symm
  | jfif => exact SameRegisters.goesForward (.of_eq (by rw [State.warnThumbnail_eq, State.warnMajor_eq]; rfl))
  | _ => exact ⟨.inl rfl, fun hs => hs, fun hf => hf⟩

/-- A marker is dispatched before a start of image only if it is the first one. -/
theorem Dispatched.started {s u t : State} (h : Dispatched s u t) (hi : s.Inv) :
    u.rstate ≠ .awaitingStartOfImage ∨ decodeCode u.pendingMarker = .soi := by
  rw [h.acquired.quiet.rstate]
  rcases h.start with hr | rfl | hc
  · exact .inl hr
  · exact .inl fun hr => h.acquired.some (hi.pending.2 hr)
  · exact .inr (by rw [hc]; rfl)

theorem GoesForward.of_same {s u t : State} (h : SameRegisters s u) (h' : GoesForward u t) : GoesForward s t := by
  simpa only [GoesForward, h.rstate, h.sawStartOfImage, h.sawFrameHeader] using h'

theorem GoesForward.then_same {s u t : State} (h : GoesForward s u) (h' : SameRegisters u t) : GoesForward s t := by
  simpa only [GoesForward, h'.rstate, h'.sawStartOfImage, h'.sawFrameHeader] using h

/-- Settles O53: only a decoder moves the reader state. -/
theorem readerStateGoesForward : Obligations.ReaderStateGoesForward := by
  intro s t hi h hr
  rcases step_cases hr h with hq | ⟨u, hd⟩
  · exact hq.goesForward
  · have hsame := hd.acquired.quiet.toSameRegisters
    refine GoesForward.of_same hsame ?_
    rcases exec_marker_cases hd.isMarker hd.run with ⟨v, g, he, rfl⟩ | hq
    · have hreader := (hi.registers.transfer hsame).reader
      exact (he.goesForward hreader (hd.started hi)).then_same (Decoded.after_quiet v g).toSameRegisters
    · exact hq.goesForward

/-! ### The frame registers -/

/-- The four header fields of a component (R102). -/
abbrev Component.header (c : Component) : FrameComponent :=
  FrameComponent.mk c.id c.horizSampling c.vertSampling c.quantTableIndex

/-- A scan header leaves the header fields of every component (R28, R177). -/
theorem assignTables_header (frame : List Component) (named : List (Nat × ScanComponent)) :
    (assignTables frame named).map Component.header = frame.map Component.header := by
  induction named generalizing frame with
  | nil => rfl
  | cons jc named ih =>
    obtain ⟨j, c⟩ := jc
    rw [assignTables, ih]
    refine List.ext_getElem (by simp) fun k _ _ => ?_
    simp only [List.getElem_map, List.getElem_modify]
    split <;> rfl

/-- The frame registers of `t` are those of `s` but for the table indices of the components. -/
abbrev SameFrame (s t : State) : Prop :=
  t.frame = { s.frame with components := t.frame.components } ∧
  t.frame.components.map Component.header = s.frame.components.map Component.header

theorem SameFrame.of_eq {s t : State} (h : t.frame = s.frame) : SameFrame s t := by
  simp only [SameFrame, h, and_self]

/-- With a frame header accepted no decoder writes another (R28, R343). -/
theorem Effect.sameFrame {s u : State} {i : Instr} {g : Signal} (h : Effect s i u g) (hs : s.sawFrameHeader = true) :
    SameFrame s u := by
  cases h with
  | frame _ fresh => rw [fresh] at hs; cases hs
  | scan => exact ⟨rfl, assignTables_header _ _⟩
  | jfif => exact .of_eq (by simp)
  | _ => exact .of_eq rfl

/-- Settles O54: a second frame header is never accepted, and a scan header writes table indices only. -/
theorem frameIsImmutable : Obligations.FrameIsImmutable := by
  intro s t hs h hr
  rcases step_cases hr h with hq | ⟨u, hd⟩
  · exact SameFrame.of_eq hq.frame
  · have hsame := hd.acquired.quiet.toSameRegisters
    rcases exec_marker_cases hd.isMarker hd.run with ⟨v, g, he, rfl⟩ | hq
    · have hframe := he.sameFrame (hsame.sawFrameHeader.trans hs)
      rw [SameFrame, hsame.frame] at hframe
      rw [(Decoded.after_quiet v g).frame]
      exact hframe
    · exact SameFrame.of_eq (hq.frame.trans hsame.frame)

/-! ### The tables -/

/-- Only a quantisation segment changes a quantisation table (R34, R41). -/
theorem Effect.dqt_of_quant_ne {s u : State} {i : Instr} {g : Signal} (h : Effect s i u g) (hne : u.quant ≠ s.quant) :
    i = .dqt := by
  cases h with
  | quant => rfl
  | jfif => exact absurd (by simp) hne
  | _ => exact absurd rfl hne

/-- Only a Huffman segment changes a Huffman table (R35, R41). -/
theorem Effect.dht_of_huff_ne {s u : State} {i : Instr} {g : Signal} (h : Effect s i u g) (hne : u.huff ≠ s.huff) :
    i = .dht := by
  cases h with
  | huff => rfl
  | jfif => exact absurd (by simp) hne
  | _ => exact absurd rfl hne

theorem decodeCode_dqt_iff (code : Byte) : decodeCode code = .dqt ↔ code = 0xDB := by revert code; decide

theorem decodeCode_dht_iff (code : Byte) : decodeCode code = .dht ↔ code = 0xC4 := by revert code; decide

/-- A step that changes a table dispatches a marker, whose decoder has changed it. -/
theorem step_table_changed {s t : State} (h : step s = .next t) (hne : t.quant ≠ s.quant ∨ t.huff ≠ s.huff) :
    ∃ u v g, Dispatched s u t ∧ Effect u (decodeCode u.pendingMarker) v g ∧ t = Decoded.after v g := by
  have hkept : ¬(t.quant = s.quant ∧ t.huff = s.huff) := fun ⟨hq, hh⟩ => hne.elim (· hq) (· hh)
  by_cases hr : s.TakesReset
  · exact absurd (by rw [step_reset hr h]; exact ⟨rfl, rfl⟩) hkept
  · rcases step_cases hr h with hq | ⟨u, hd⟩
    · exact absurd ⟨hq.quant, hq.huff⟩ hkept
    · rcases exec_marker_cases hd.isMarker hd.run with ⟨v, g, he, ht⟩ | hq
      · exact ⟨u, v, g, hd, he, ht⟩
      · have hall := hd.acquired.quiet.trans hq
        exact absurd ⟨hall.quant, hall.huff⟩ hkept

/-- Settles O55: the step dispatches the marker whose decoder has changed the table. -/
theorem tablesChangedByTheirSegments : Obligations.TablesChangedByTheirSegments := by
  intro s t h
  refine ⟨fun hne => ?_, fun hne => ?_⟩
  · obtain ⟨u, v, g, hd, he, rfl⟩ := step_table_changed h (.inl hne)
    obtain ⟨run, ha⟩ := hd.running
    have hquant := hd.acquired.quiet.quant
    have hi := he.dqt_of_quant_ne (by rwa [hquant, ← (Decoded.after_quiet v g).quant])
    exact ⟨u, run, ha, hi ▸ hd.fetched, (decodeCode_dqt_iff _).1 hi, hquant, hi ▸ hd.run⟩
  · obtain ⟨u, v, g, hd, he, rfl⟩ := step_table_changed h (.inr hne)
    obtain ⟨run, ha⟩ := hd.running
    have hhuff := hd.acquired.quiet.huff
    have hi := he.dht_of_huff_ne (by rwa [hhuff, ← (Decoded.after_quiet v g).huff])
    exact ⟨u, run, ha, hi ▸ hd.fetched, (decodeCode_dht_iff _).1 hi, hhuff, hi ▸ hd.run⟩

/-! ### The latch -/

/-- While the latch is set a command but RESET_STREAM changes nothing but the result of an idle core (R281, R289, R320). -/
theorem command_latched {s t : State} {code : BitVec 2} (hf : s.latch.fatal = true) (hne : code ≠ 1)
    (h : exec (decodeCommand code) s = .next t) : s.activity = .idle ∧ ∃ r, t = s.finish r := by
  rcases Laws.decodeCommand_cases code with hc | hc | hc | hc <;> rw [hc] at h
  · obtain ⟨ha, rfl⟩ := execNop_next.1 h
    exact ⟨ha, _, rfl⟩
  · exact absurd hc (by revert hne; revert code; decide)
  · obtain ⟨ha, ⟨-, rfl⟩ | ⟨hn, -⟩⟩ := execReadMarkers_next.1 h
    · exact ⟨ha, _, rfl⟩
    · rw [hf] at hn; cases hn
  · obtain ⟨ha, ⟨-, rfl⟩ | ⟨hn, -⟩ | ⟨hn, -⟩⟩ := execReadRestartMarker_next.1 h
    · exact ⟨ha, _, rfl⟩
    · rw [hf] at hn; cases hn
    · rw [hf] at hn; cases hn

/-- Settles O37: the entropy stage may not act, and the commands end at once. -/
theorem latchIsSticky : Obligations.LatchIsSticky := by
  intro s t hf ha hr h
  have hstill : ¬s.entropyMayAct = true := fun hmay => by
    have := (State.entropyMayAct_iff.1 hmay).2
    rw [hf] at this; cases this
  rcases step_idle ha h with ⟨-, rfl⟩ | ⟨code, rest, hin, h⟩ | ⟨bs, rest, -, rfl⟩ | ⟨n, rest, -, -, rfl⟩ | ⟨rest, -, rfl⟩ |
    ⟨n, rest, -, hmay, -⟩ | ⟨code, rest, -, hmay, -⟩ | ⟨v, rest, -, rfl⟩
  · rfl
  · have hne : code ≠ 1 := fun hc => hr (by rw [hin, hc]; rfl)
    obtain ⟨-, r, rfl⟩ := command_latched (s := { s with inputs := rest }) hf hne h
    simp only [State.finish, ha]
  · rfl
  · rfl
  · rfl
  · exact absurd hmay hstill
  · exact absurd hmay hstill
  · rfl

/-! ### What can stop a step -/

theorem State.whenIdle_ne_fault {s : State} {k : StepOutcome} {f : Fault} (h : k ≠ .fault f) : s.whenIdle k ≠ .fault f := by
  unfold State.whenIdle; split
  · exact h
  · exact nofun

theorem exec_command_ne_fault {s : State} {f : Fault} (code : BitVec 2) : exec (decodeCommand code) s ≠ .fault f := by
  rcases Laws.decodeCommand_cases code with hc | hc | hc | hc <;> rw [hc] <;> refine State.whenIdle_ne_fault ?_
  · exact nofun
  · exact nofun
  · split <;> exact nofun
  · obtain ⟨t, ht⟩ := s.settleRestart_is_next
    rw [ht]
    split_ifs <;> exact nofun

/-- A step of an idle core never faults. -/
theorem step_idle_ne_fault {s : State} {f : Fault} (ha : s.activity = .idle) : step s ≠ .fault f := by
  have hf : fetch s = fetchInput s s.inputs := by simp [fetch, ha]
  cases hin : s.inputs with
  | nil => rw [hin] at hf; rw [step_of_settled hf]; exact nofun
  | cons input rest =>
    rw [hin] at hf
    cases input with
    | command code => rw [step_of_instr hf]; exact exec_command_ne_fault code
    | fill => rw [step_of_settled hf]; exact nofun
    | account => rw [step_of_settled hf, State.account]; split <;> exact nofun
    | endOfData => rw [step_of_settled hf]; exact nofun
    | consume =>
      rw [step_of_settled hf, State.consume]; split
      · exact orOverflow_ne_fault
      · exact nofun
    | handOver => rw [step_of_settled hf, State.handOver]; split <;> exact nofun
    | setColorSpace => rw [step_of_settled hf]; exact nofun

theorem State.restartFound_is_next (s : State) (phase : RestartPhase) : ∃ t, s.restartFound phase = .next t := by
  cases phase with
  | seeking => exact s.settleRestart_is_next
  | resyncing => exact s.resyncTurn_is_next

/-- An outcome that is a next state or a want of room for `pos`. -/
structure GoesOn (o : StepOutcome) : Prop where
  ne_fault : ∀ f, o ≠ .fault f
  refused  : ∀ r, o = .refused r → r = .positionOverflow

theorem GoesOn.next (t : State) : GoesOn (.next t) := ⟨nofun, nofun⟩

theorem GoesOn.overflow : GoesOn (.refused .positionOverflow) := ⟨nofun, fun _ h => (Host.Outcome.refused.inj h).symm⟩

theorem GoesOn.discard (s : State) (counted n : Nat) : GoesOn (s.discard counted n) :=
  ⟨fun _ => orOverflow_ne_fault, fun _ => orOverflow_refused⟩

theorem GoesOn.marker {i : Instr} (s : State) (hi : isMarker i = true) : GoesOn (exec i s) :=
  ⟨fun _ => exec_marker_ne_fault hi, fun _ => exec_marker_refused hi⟩

/-- A step of READ_MARKERS goes on, unless the pending marker is `0xFF` (R24, R282). -/
theorem step_reading_goesOn {s : State} {run : Nat} (ha : s.activity = .reading run) (hp : s.pendingMarker ≠ 0xFF) :
    GoesOn (step s) := by
  generalize ho : step s = o
  have hturn := ho ▸ step_reading ha
  cases hturn with
  | starved => exact .next _
  | wrong => exact .next _
  | first => exact .marker _ rfl
  | pending h0 hf => exact .marker _ (decodeCode_isMarker h0 hf)
  | stuck h => exact absurd h hp
  | garbage => exact .discard _ _ _
  | fill => exact .next _
  | stuff => exact .discard _ _ _
  | marker _ _ _ h0 hf => exact .marker _ (decodeCode_isMarker h0 hf)
  | overflow => exact .overflow

theorem step_restarting_goesOn {s : State} {phase : RestartPhase} {run : Nat} (ha : s.activity = .restarting phase run) :
    GoesOn (step s) := by
  generalize ho : step s = o
  have hturn := ho ▸ step_restarting ha
  cases hturn with
  | starved => exact .next _
  | garbage => exact .discard _ _ _
  | fill => exact .next _
  | stuff => exact .discard _ _ _
  | @marker _ u =>
    obtain ⟨t, ht⟩ := u.restartFound_is_next phase
    rw [ht]; exact .next t
  | overflow => exact .overflow

/-- Settles O56, by the command in progress. -/
theorem safeStatesGoOn : Obligations.SafeStatesGoOn := by
  intro s hi
  cases ha : s.activity with
  | idle => exact ⟨fun f => step_idle_ne_fault ha, fun h => absurd rfl h⟩
  | reading run =>
    have h := step_reading_goesOn ha hi.pending.1
    exact ⟨h.ne_fault, fun _ => h.refused⟩
  | restarting phase run =>
    have h := step_restarting_goesOn ha
    exact ⟨h.ne_fault, fun _ => h.refused⟩

end Sys2Proof.Machine

/-! PROOF. What the host reads: both columns of the reset table, and the guard of every element (`10_state.md` R21, R42, R44). -/

namespace Sys2Proof.Machine

/-! ### The reset table -/

theorem State.reset_quantDefined (t : Fin 4) : State.reset.quant.defined[t] = false := by revert t; decide

theorem State.reset_huff (c : Fin 2) (t : Fin 4) : State.reset.huff[c][t] = HuffTable.reset := by revert c t; decide

/-- What the power-on state holds in every element (R44). -/
theorem State.reset_read (e : Element) : State.reset.read e = e.powerOn := by
  cases e
  case quantDefined t => simp only [State.read, State.reset_quantDefined]; rfl
  case quantTables t k => simp only [State.read, State.reset_quantDefined]; rfl
  case huffDefined c t => simp only [State.read, State.reset_huff]; rfl
  case huffBits c t l => simp only [State.read, State.reset_huff]; rfl
  case huffSymCount c t => simp only [State.read, State.reset_huff]; rfl
  case huffVals c t i => simp only [State.read, State.reset_huff]; rfl
  all_goals rfl

/-- RESET_STREAM leaves the kept elements as they were and every other at its power-on value. -/
theorem State.resetStream_read (s : State) (e : Element) :
    s.resetStream.read e = if e.keptByReset then s.read e else State.reset.read e := by
  cases e <;> rfl

theorem State.finish_read (s : State) (r : Result) (e : Element) : (s.finish r).read e = s.read e := by
  cases e <;> rfl

/-- Settles O9, element by element. -/
theorem resetTable : Obligations.ResetTable := by
  refine ⟨fun e => (State.query_idle rfl e).trans (State.reset_read e), fun s ha => ?_⟩
  refine ⟨s.resetStream.finish .resetDone, execResetStream_next.2 ⟨ha, rfl⟩, fun e => ?_⟩
  rw [State.query_idle rfl, State.finish_read, State.resetStream_read, State.reset_read, State.query_idle ha]

/-! ### The guards -/

/-- A guarded element answers exactly under its guard. -/
theorem guarded_number (guard : Bool) (n : Nat) :
    guarded guard (.number n) = if guard then .ok (.number n) else .error .noValue := rfl

/-- A guarded entry of a list answers exactly under its guard and where the list has it. -/
theorem entry_getElem_isOk {α : Type} {guard : Bool} {xs : List α} {i : Nat} {f : α → Nat} :
    (∃ r, entry guard (xs[i]?.map f) = .ok r) ↔ guard = true ∧ i < xs.length := by
  simp only [entry_eq_ok]
  by_cases hi : i < xs.length <;> simp [hi]

/-- What it answers is the entry. -/
theorem entry_getElem_value {α : Type} {guard : Bool} {xs : List α} {i : Nat} {f : α → Nat} {r : Reading}
    (h : entry guard (xs[i]?.map f) = .ok r) : xs[i]?.map (fun x => Reading.number (f x)) = some r := by
  have := (entry_eq_ok.1 h).2
  rwa [Option.map_map] at this

/-- A field of a component holds a value unless it is a table index that no scan header has written (R29). -/
theorem Component.field_isSome {c : Component} {f : ComponentField} :
    (∃ n, c.field f = some n) ↔ (f = .dcTableIndex ∨ f = .acTableIndex → c.scanned = true) := by
  cases f <;> simp [Component.field]

/-- Before a frame header no component exists (R29). -/
theorem State.FrameInv.sawFrameHeader {s : State} (h : s.FrameInv) {i : Nat} {c : Component}
    (hc : s.frame.components[i]? = some c) : s.sawFrameHeader = true := by
  by_contra hs
  rw [State.FrameInv, if_neg hs] at h
  rw [h] at hc
  cases hc

/-- The query of a component's field answers exactly where the component exists and the field holds a value. -/
theorem State.FrameInv.read_isOk {s : State} (h : s.FrameInv) (i : Fin 255) (f : ComponentField) :
    (∃ r, s.read (.frameComponents i f) = .ok r) ↔
      ∃ c, s.frame.components[i.val]? = some c ∧ (f = .dcTableIndex ∨ f = .acTableIndex → c.scanned = true) := by
  simp only [State.read, entry_eq_ok, ← Component.field_isSome]
  cases hc : s.frame.components[i.val]? with
  | none => simp
  | some c => simp [h.sawFrameHeader hc]

/-- What it answers is the field. -/
theorem State.read_component {s : State} {i : Fin 255} {c : Component} (hc : s.frame.components[i.val]? = some c)
    {f : ComponentField} {n : Nat} (hf : c.field f = none ∨ c.field f = some n) {r : Reading}
    (hr : s.read (.frameComponents i f) = .ok r) : r = .number n := by
  have := (entry_eq_ok.1 hr).2
  rw [hc, Option.bind_some] at this
  rcases hf with hf | hf <;> rw [hf] at this
  · cases this
  · exact (Option.some.inj this).symm

/-- A defined table holds as many symbols as its count says (R35). -/
theorem HuffTable.Ok.read_isOk {t : HuffTable} (h : t.Ok) (i : Nat) :
    (∃ r, entry t.defined (t.values[i]?.map BitVec.toNat) = .ok r) ↔ t.defined = true ∧ i < t.symCount.toNat := by
  rw [entry_getElem_isOk]
  refine and_congr_right fun hd => ?_
  obtain ⟨hlen, -, -⟩ := h hd
  rw [hlen]

/-- In a scan as many indices are held as the scan header names components (R30). -/
theorem State.ScanInv.read_isOk {s : State} (h : s.ScanInv) (i : Fin 4) :
    (∃ r, s.read (.scanComponentIndex i) = .ok r) ↔ s.rstate = .inScan ∧ i.val < s.scan.componentCount.toNat := by
  rw [State.read, entry_getElem_isOk, decide_eq_true_iff]
  refine and_congr_right fun hs => ?_
  obtain ⟨-, -, hlen, -⟩ := h hs
  rw [hlen]

/-- Settles O60: the invariant gives the number of entries behind each guard. -/
theorem queriesAreGuarded : Obligations.QueriesAreGuarded := by
  intro s
  refine ⟨s.query_events, fun ha e he => State.query_running ha he, fun hi ha => ?_⟩
  simp only [State.query_idle ha]
  refine ⟨?_, ?_, ?_, fun i => ⟨hi.scan.read_isOk i, fun r => entry_getElem_value⟩, hi.frame.read_isOk, ?_, ?_, ?_,
    fun c t i => ⟨(hi.huff c t).read_isOk i, fun r => entry_getElem_value⟩, ?_, ?_⟩
  · simp [State.read, ofBool]
  · simp [State.read, guarded_number]
  · simp [State.read, guarded_number]
  · intro i c hc
    simp only [List.forall_mem_cons]
    refine ⟨?_, ?_, ?_, ?_, ?_, ?_, nofun⟩ <;> refine fun r => State.read_component hc ?_ <;>
      simp [Component.field]
  · exact fun t k => ⟨rfl, rfl⟩
  · refine fun c t => ⟨rfl, fun l => ?_⟩
    simp [State.read, guarded_number]
  · simp [State.read, guarded_number]
  · simp [State.read, guarded_number]

end Sys2Proof.Machine

/-! PROOF. What each group of instructions leaves alone (`10_state.md` R41, `41_frame_and_scan_headers.md` R160). -/

namespace Sys2Proof.Machine

/-- `s` with the fields of `t` that the group of a marker instruction writes, and no other. -/
def State.withWritten (i : Instr) (s t : State) : State :=
  match i with
  | .app0 => { s with pos := t.pos, jfif := t.jfif, events := t.events }
  | .app14 => { s with pos := t.pos, adobe := t.adobe }
  | .app1 | .app2 | .app3 | .app4 | .app5 | .app6 | .app7 | .app8 | .app9 | .app10 | .app11 | .app12 | .app13 | .app15
  | .com | .dnl => { s with pos := t.pos }
  | .dqt => { s with pos := t.pos, quant := t.quant }
  | .dht => { s with pos := t.pos, huff := t.huff }
  | .dac => { s with pos := t.pos, arith := t.arith }
  | .dri => { s with pos := t.pos, restartInterval := t.restartInterval }
  | .soi =>
    { s with
        arith := t.arith, restartInterval := t.restartInterval, colorSpace := t.colorSpace, jfif := t.jfif
        adobe := t.adobe, sawStartOfImage := t.sawStartOfImage, rstate := t.rstate }
  | .sof0 | .sof1 | .sof2 | .sof9 | .sof10 =>
    { s with
        pos := t.pos, frame := t.frame, sawFrameHeader := t.sawFrameHeader, rstate := t.rstate
        freeCount := t.freeCount }
  | .sos =>
    { s with
        pos := t.pos, frame := { s.frame with components := t.frame.components }, scan := t.scan
        scanCount := t.scanCount, nextRestartIndex := t.nextRestartIndex, rstate := t.rstate }
  | _ => s

/-- `u` with the fields of `t` that the dispatcher writes for every marker instruction: the pending code, the latch, the
result and the end of the command (R281, R357). -/
def State.ended (u t : State) : State :=
  { u with pendingMarker := t.pendingMarker, latch := t.latch, result := t.result, activity := t.activity }

/-- Every instruction's group admits that none of its fields changes. -/
theorem State.withWritten_finish (i : Instr) (s : State) (r : Result) : s.withWritten i (s.finish r) = s := by
  cases i <;> rfl

theorem State.withWritten_raiseFatal (i : Instr) (s : State) (f : FatalError) : s.withWritten i (s.raiseFatal f) = s := by
  cases i <;> rfl

theorem State.withWritten_after (i : Instr) (s v : State) (g : Signal) :
    s.withWritten i (Decoded.after v g) = s.withWritten i v := by
  cases g <;> cases i <;> rfl

theorem State.withWritten_of_maySkip {i : Instr} (h : maySkip i = true) (s : State) (p : Position) :
    s.withWritten i { s with pos := p } = { s with pos := p } := by
  cases i <;> first | rfl | cases h

theorem State.withWritten_of_frameCode {i : Instr} {code : Byte} (h : frameCode i = some code) (s t : State) :
    s.withWritten i t =
      { s with
          pos := t.pos, frame := t.frame, sawFrameHeader := t.sawFrameHeader, rstate := t.rstate
          freeCount := t.freeCount } := by
  cases i <;> first | rfl | cases h

theorem State.withWritten_of_isInformational {i : Instr} (h : isInformational i = true) (s t : State) :
    s.withWritten i t = s := by
  cases i <;> first | rfl | cases h

/-- A decoder that is done has written only the fields of its instruction's group. -/
theorem Effect.withWritten {s u : State} {i : Instr} {g : Signal} (h : Effect s i u g) : s.withWritten i u = u := by
  cases h with
  | plain h => exact State.withWritten_of_isInformational h s s
  | skip h => exact State.withWritten_of_maySkip h s _
  | frame h => exact State.withWritten_of_frameCode h s _
  | jfif => rw [State.warnThumbnail_eq, State.warnMajor_eq]; rfl
  | _ => rfl

/-- What a marker instruction leaves alone: all that is outside its group and the dispatcher's fields. -/
theorem exec_marker_frame {i : Instr} {s t : State} (hi : isMarker i = true) (h : exec i s = .next t) :
    t = (s.withWritten i t).ended t := by
  rcases exec_marker_next hi h with ⟨v, g, he, rfl⟩ | rfl | ⟨f, rfl⟩
  · rw [State.withWritten_after, he.withWritten]; cases g <;> rfl
  · rw [State.suspend, State.withWritten_finish]; rfl
  · rw [State.withWritten_raiseFatal]; rfl

/-- Settles O47: a marker by `exec_marker_frame`, an escape or a command by its own law. -/
theorem instructionFrames : Obligations.InstructionFrames := by
  intro i s t h ended
  have hmarker : isMarker i = true → t = ended (s.withWritten i t) := fun hi => exec_marker_frame hi h
  refine ⟨?_, fun hi => ?_, ?_, ?_, ?_, ?_, ?_, ?_, ?_, fun hi => ?_, ?_, ?_, ?_, ?_, ?_, ?_, ?_⟩
  · rintro (hi | ⟨code, rfl⟩)
    · fin_cases hi <;> exact hmarker rfl
    · exact hmarker rfl
  · fin_cases hi <;> exact hmarker rfl
  · rintro rfl; exact hmarker rfl
  · rintro rfl; exact hmarker rfl
  · rintro rfl; exact hmarker rfl
  · rintro rfl; exact hmarker rfl
  · rintro rfl; exact hmarker rfl
  · rintro rfl; exact hmarker rfl
  · rintro rfl; exact hmarker rfl
  · fin_cases hi <;> exact hmarker rfl
  · rintro rfl; exact hmarker rfl
  · rintro rfl
    obtain ⟨-, rfl⟩ := execNop_next.1 h
    rfl
  · rintro rfl
    obtain ⟨-, ⟨-, rfl⟩ | ⟨-, rfl⟩⟩ := execReadMarkers_next.1 h <;> rfl
  · rintro rfl; exact execFill_next.1 h ▸ rfl
  · rintro rfl
    obtain ⟨-, rfl⟩ := execStuff_next.1 h
    rfl
  · rintro rfl
    obtain ⟨-, ⟨-, rfl⟩ | ⟨-, -, -, rfl⟩ | ⟨-, -, -, h⟩⟩ := execReadRestartMarker_next.1 h
    · rfl
    · rfl
    · exact (State.settleRestart_frame h).1
  · rintro rfl
    obtain ⟨-, rfl⟩ := execResetStream_next.1 h
    exact ⟨rfl, rfl, rfl, rfl, rfl, rfl⟩

end Sys2Proof.Machine

/-! SUPPORT. Each buffered kind on a whole segment with operands it accepts: its decoder comes down to its one commit
(`41_frame_and_scan_headers.md` R160, `42_table_segments.md` R190 to R193). -/

namespace Sys2Proof.Machine

section Segments
variable {s : State}

theorem decodeFrameHeader_encode (code : Byte) {o : FrameOperands} (hw : o.wf) (fresh : s.sawFrameHeader = false)
    (h : s.Segment (encodeFrame o)) :
    decodeFrameHeader code s = .commit ((s.writeFrame code o).advance ((encodeFrame o).length + 2)) := by
  rw [decodeFrameHeader, fresh, if_neg Bool.false_ne_true, State.buffered_segment h _ _ _ h.length_ok,
    readFrame_encode code hw, Decoded.ofRead_ok, h.read.2.1]

theorem decodeScanHeader_encode {o : ScanOperands} (hw : o.wf) (seen : s.sawFrameHeader = true)
    (h : s.Segment (encodeScan o)) {js : List Nat} (hjs : resolveSelectors s.frame.components o.components = .ok js) :
    decodeScanHeader s = .commit ((s.writeScan o js).advance ((encodeScan o).length + 2)) .scanStart := by
  rw [decodeScanHeader, if_pos seen, State.buffered_segment h _ _ _ h.length_ok, readScan_encode hw, Decoded.ofRead_ok,
    hjs, Decoded.ofRead_ok, h.read.2.1]

theorem decodeDqt_encode {defs : List QuantDef} (hw : ∀ d ∈ defs, d.wf) (h : s.Segment (defs.flatMap encodeQuantDef)) :
    decodeDqt s =
      .commit ({ s with quant := defs.foldl QuantRegs.define s.quant }.advance
        ((defs.flatMap encodeQuantDef).length + 2)) := by
  rw [decodeDqt, State.buffered_segment h _ _ _ h.length_ok, readQuantDefs_encode _ hw le_rfl, Decoded.ofRead_ok,
    h.read.2.1]

theorem decodeDht_encode {defs : List HuffDef} (hw : ∀ d ∈ defs, d.wf) (h : s.Segment (defs.flatMap encodeHuffDef)) :
    decodeDht s =
      .commit ({ s with huff := defs.foldl defineHuff s.huff }.advance ((defs.flatMap encodeHuffDef).length + 2)) := by
  rw [decodeDht, State.buffered_segment h _ _ _ h.length_ok, readHuffDefs_encode _ hw le_rfl, Decoded.ofRead_ok,
    h.read.2.1]

theorem decodeDac_encode {es : List DacEntry} (hw : ∀ e ∈ es, e.wf) (h : s.Segment (es.flatMap encodeDacEntry)) :
    decodeDac s =
      .commit ({ s with arith := es.foldl ArithRegs.apply s.arith }.advance
        ((es.flatMap encodeDacEntry).length + 2)) := by
  rw [decodeDac, State.buffered_segment h _ _ _ h.length_ok, readDacEntries_encode _ hw, Decoded.ofRead_ok, h.read.2.1]

theorem decodeDri_halfBytes {ri : Half} (h : s.Segment (halfBytes ri)) :
    decodeDri s = .commit ({ s with restartInterval := ri }.advance 4) := by
  have hl : (BitVec.ofNat 16 ((halfBytes ri).length + 2)).toNat = 4 := h.read.2.1
  rw [decodeDri, State.buffered_segment h _ _ _ ((lengthIsFour_iff _).2 hl)]
  generalize BitVec.ofNat 16 ((halfBytes ri).length + 2) = l at hl ⊢
  simp only [halfBytes, be16_halfBytes, hl]

end Segments

/-- Selectors that all name a frame component resolve (R177). -/
theorem resolveSelectors_of_named {frame : List Component} {cs : List ScanComponent}
    (h : ∀ c ∈ cs, ∃ f ∈ frame, f.id = c.selector) : ∃ js, resolveSelectors frame cs = .ok js := by
  induction cs with
  | nil => exact ⟨[], rfl⟩
  | cons c cs ih =>
    obtain ⟨⟨f, hf, hid⟩, hcs⟩ := List.forall_mem_cons.1 h
    obtain ⟨js, hjs⟩ := ih hcs
    cases hj : frame.findIdx? (fun f => f.id == c.selector) with
    | none => exact absurd (List.findIdx?_eq_none_iff.1 hj f hf) (by simp [hid])
    | some j => exact ⟨j :: js, by simp only [resolveSelectors, hj, hjs]⟩

end Sys2Proof.Machine

/-! PROOF. What would carry `pos` past `2^64 - 1` is refused (`10_state.md` R22, `60_exceptions.md` R364 (c)): the decoders,
then the scanner's commits, then the entropy stage. -/

namespace Sys2Proof.Machine

/-! ### Decoders -/

theorem exec_refused_of_overflow {i : Instr} {s : State} (hi : isMarker i = true) (h : decoderOf i s = .overflow) :
    exec i s = .refused .positionOverflow := by
  rw [exec_eq_complete hi, h, State.complete_overflow]

section Skips
variable {s : State} {l : Half} (hl : s.source.half s.pos.toNat = some l) (hroom : ¬s.Room (max l.toNat 2))
include hl hroom

theorem skipVariable_eq_overflow : skipVariable s = .overflow := by
  simp only [skipVariable, hl]
  exact Decoded.commit_advance_of_not _ hroom

theorem decodeApp0_eq_overflow (hav : s.pos.toNat + 2 + min (l.toNat - 2) 14 ≤ s.source.avail) :
    decodeApp0 s = .overflow := by
  have hhas : s.source.has s.pos.toNat (2 + examined l app0FixedLength) = true := by
    apply ByteSource.has_of_le; simp only [examined, app0FixedLength]; omega
  simp only [decodeApp0, hl, hhas, if_true]
  split
  · refine Decoded.commit_advance_of_not _ ?_
    simpa [consumed] using hroom
  · exact Decoded.commit_advance_of_not _ hroom

theorem decodeApp14_eq_overflow (hav : s.pos.toNat + 2 + min (l.toNat - 2) 12 ≤ s.source.avail) :
    decodeApp14 s = .overflow := by
  have hhas : s.source.has s.pos.toNat (2 + examined l app14FixedLength) = true := by
    apply ByteSource.has_of_le; simp only [examined, app14FixedLength]; omega
  simp only [decodeApp14, hl, hhas, if_true]
  split <;> exact Decoded.commit_advance_of_not _ hroom

end Skips

/-! ### Moves that are a step of their own -/

theorem orOverflow_advance_of_not {s : State} {n : Nat} (h : ¬s.Room n) :
    orOverflow (s.advance n) = .refused .positionOverflow := by
  rw [State.advance_none.2 (Nat.le_of_not_lt h)]; rfl

theorem State.discard_eq_overflow {s : State} {counted n : Nat} (h : ¬s.Room n) :
    s.discard counted n = .refused .positionOverflow := orOverflow_advance_of_not h

theorem State.acquire_eq_none {s : State} {code : Byte} (h : ¬s.Room (s.activity.run + 2)) : s.acquire code = none := by
  refine State.advance_none.2 ?_
  rw [State.warnExtraneous_pos]
  exact Nat.le_of_not_lt h

theorem State.acquireFirst_eq_none {s : State} (h : ¬s.Room 2) : s.acquireFirst = none :=
  State.advance_none.2 (Nat.le_of_not_lt h)

/-- The scanner of a running command stands at its look: READ_MARKERS past the start of image with no marker pending, or
READ_RESTART_MARKER. -/
def State.Scans (s : State) (run : Nat) : Prop :=
  s.activity = .reading run ∧ s.pendingMarker = 0 ∧ s.rstate ≠ .awaitingStartOfImage ∨
    ∃ phase, s.activity = .restarting phase run

/-- A garbage byte that cannot be discarded. -/
theorem State.Scans.garbage_overflow {s : State} {run : Nat} (h : s.Scans run) (ht : s.token run = .garbage)
    (hroom : ¬s.Room 1) : step s = .refused .positionOverflow := by
  have hf : fetch s = .settled s.discardGarbage := by
    rcases h with ⟨ha, hp, hr⟩ | ⟨phase, ha⟩
    · simp [fetch, ha, fetchMarker, State.hasPending, hp, hr, fetchNext, ht]
    · simp [fetch, ha, fetchRestart, ht]
  rw [step_of_settled hf]
  exact State.discard_eq_overflow hroom

/-- A marker that cannot be acquired. -/
theorem State.Scans.marker_overflow {s : State} {run : Nat} {code : Byte} (h : s.Scans run)
    (ht : s.token run = .pair code) (h0 : code ≠ 0) (h1 : code ≠ introducer) (hroom : ¬s.Room (run + 2)) :
    step s = .refused .positionOverflow := by
  have hrun : s.activity.run = run := by rcases h with ⟨ha, -⟩ | ⟨phase, ha⟩ <;> rw [ha] <;> rfl
  have hnone : s.acquire code = none := State.acquire_eq_none (by rwa [hrun])
  have hmarker : ¬(code = introducer ∨ code = 0) := not_or.2 ⟨h1, h0⟩
  refine step_of_settled ?_
  rcases h with ⟨ha, hp, hr⟩ | ⟨phase, ha⟩
  · have hf : fetch s = fetchPair s code := by simp [fetch, ha, fetchMarker, State.hasPending, hp, hr, fetchNext, ht]
    rw [hf, fetchPair, if_neg hmarker, hnone]; rfl
  · have hf : fetch s = fetchRestart s phase run := by simp [fetch, ha]
    simp only [hf, fetchRestart, ht, if_neg hmarker, hnone]; rfl

/-- The first marker that cannot be acquired (R146). -/
theorem step_first_overflow {s : State} {run : Nat} (ha : s.activity = .reading run) (hp : s.pendingMarker = 0)
    (hr : s.rstate = .awaitingStartOfImage) (hh : s.source.Holds s.pos.toNat [0xFF, 0xD8]) (hroom : ¬s.Room 2) :
    step s = .refused .positionOverflow := by
  obtain ⟨hav, h0, h1⟩ := ByteSource.holds_pair.1 hh
  have hlook : s.firstLook = .found := by
    simp [State.firstLook, ByteSource.has_of_le hav, h0, h1, introducer, startOfImageCode]
  have hf : fetch s = .settled (.refused .positionOverflow) := by
    simp [fetch, ha, fetchMarker, State.hasPending, hp, hr, fetchFirst, hlook, State.acquireFirst_eq_none hroom,
      fetchAcquired]
  exact step_of_settled hf

/-! ### The entropy stage, and the statement -/

/-- Coded data that cannot be consumed (R327). -/
theorem step_consume_overflow {s : State} {n : Nat} {rest : List Input} (ha : s.activity = .idle)
    (hin : s.inputs = .consume n :: rest) (hs : s.rstate = .inScan) (hf : s.latch.fatal = false)
    (hav : s.pos.toNat + n ≤ s.source.avail) (hroom : ¬s.Room n) : step s = .refused .positionOverflow := by
  have hfetch : fetch s = fetchInput s s.inputs := by simp [fetch, ha]
  rw [hin] at hfetch
  rw [step_of_settled hfetch, State.consume, if_pos (by simp [State.entropyMayAct, hs, hf, hav])]
  exact orOverflow_advance_of_not hroom

/-- Settles O46, kind by kind: each decoder comes down to its commit, each scanner turn to its move. -/
theorem positionOverflowRefused : Obligations.PositionOverflowRefused := by
  intro s
  refine ⟨?_, fun p hp hroom => ⟨?_, ?_, ?_, ?_, ?_, ?_⟩, fun hroom => State.discard_eq_overflow hroom,
    fun run ha hn hr hh hroom => step_first_overflow ha hn hr hh hroom, fun run (hscan : s.Scans run) => ⟨?_, ?_⟩,
    fun n rest ha hin hs hf hav hroom => step_consume_overflow ha hin hs hf hav hroom⟩
  · intro i l hi hl hroom
    have hskip := skipVariable_eq_overflow hl hroom
    rcases hi with hi | ⟨rfl, hc⟩ | ⟨rfl, hc⟩ | ⟨rfl, hc, hav⟩ | ⟨rfl, hc, hav⟩
    · fin_cases hi <;> exact exec_refused_of_overflow rfl hskip
    · exact exec_refused_of_overflow rfl (by simpa [decoderOf, hc] using hskip)
    · exact exec_refused_of_overflow rfl (by simpa [decoderOf, hc] using hskip)
    · exact exec_refused_of_overflow rfl (by simpa [decoderOf, hc] using decodeApp0_eq_overflow hl hroom hav)
    · exact exec_refused_of_overflow rfl (by simpa [decoderOf, hc] using decodeApp14_eq_overflow hl hroom hav)
  · rintro ic hic o hw rfl fresh
    have hover (code : Byte) : decodeFrameHeader code s = .overflow :=
      (decodeFrameHeader_encode code hw fresh hp).trans (Decoded.commit_advance_of_not _ hroom)
    fin_cases hic <;> exact exec_refused_of_overflow rfl (hover _)
  · rintro o hw rfl seen hnamed
    obtain ⟨js, hjs⟩ := resolveSelectors_of_named hnamed
    exact exec_refused_of_overflow rfl
      ((decodeScanHeader_encode hw seen hp hjs).trans (Decoded.commit_advance_of_not _ hroom))
  · rintro defs hw rfl
    exact exec_refused_of_overflow rfl ((decodeDqt_encode hw hp).trans (Decoded.commit_advance_of_not _ hroom))
  · rintro defs hw rfl
    exact exec_refused_of_overflow rfl ((decodeDht_encode hw hp).trans (Decoded.commit_advance_of_not _ hroom))
  · rintro es hw rfl
    exact exec_refused_of_overflow rfl ((decodeDac_encode hw hp).trans (Decoded.commit_advance_of_not _ hroom))
  · rintro ri rfl
    exact exec_refused_of_overflow rfl ((decodeDri_halfBytes hp).trans (Decoded.commit_advance_of_not _ hroom))
  · intro b hrun hb hne hroom
    exact hscan.garbage_overflow (State.token_garbage.2 ⟨hrun, b, hb, hne⟩) hroom
  · intro c hfirst hc h0 h1 hroom
    exact hscan.marker_overflow (State.token_pair.2 ⟨hfirst, hc⟩) h0 h1 hroom

end Sys2Proof.Machine

/-! PROOF. What the byte source does, and what nothing else may do to its stream (`20_memory.md` R70 to R76): a turn of the
environment, the bytes of a fill, and the stream over a step. -/

namespace Sys2Proof.Machine

/-! ### Turns of the environment -/

theorem fetch_idle {s : State} (ha : s.activity = .idle) : fetch s = fetchInput s s.inputs := by simp [fetch, ha]

/-- A step of an idle core whose next input settles it without an instruction. -/
theorem step_of_input {s : State} {inputs : List Input} {o : StepOutcome} (ha : s.activity = .idle)
    (hin : s.inputs = inputs) (ho : fetchInput s inputs = .settled o) : step s = o :=
  step_of_settled (by rw [fetch_idle ha, hin, ho])

/-- Settles O43: an idle core settles each of these inputs without an instruction. -/
theorem environmentTurns : Obligations.EnvironmentTurns := fun _ _ ha =>
  ⟨fun hin => step_of_input ha hin rfl, fun _ hin => step_of_input ha hin rfl, fun _ hin => step_of_input ha hin rfl,
    fun hin => step_of_input ha hin rfl, fun _ hin => step_of_input ha hin rfl⟩

/-! ### The bytes of a fill -/

/-- Settles O45. -/
theorem fillSuppliesBytes : Obligations.FillSuppliesBytes := fun _ bs hm =>
  ⟨fun k hk => ByteSource.peek_fill bs hm k hk, fun _ ha => ByteSource.peek_fill_of_lt bs hm ha,
    fun _ ha => ByteSource.peek_eq_none.2 ha⟩

/-! ### The stream over a step -/

/-- `t` has the configuration, the byte source and the inputs of `s`. -/
structure SameSurroundings (s t : State) : Prop where
  config : t.config = s.config
  source : t.source = s.source
  inputs : t.inputs = s.inputs

theorem SameSurroundings.trans {s u t : State} (h : SameSurroundings s u) (h' : SameSurroundings u t) :
    SameSurroundings s t :=
  ⟨h'.config.trans h.config, h'.source.trans h.source, h'.inputs.trans h.inputs⟩

theorem Acquired.sameSurroundings {s u : State} (h : Acquired s u) : SameSurroundings s u := by
  constructor <;> rw [h.frame]

theorem sameSurroundings_of_marker {i : Instr} {s t : State} (hi : isMarker i = true) (h : exec i s = .next t) :
    SameSurroundings s t := by
  obtain ⟨hconfig, hsource, hinputs, -, -⟩ := exec_marker_keeps hi h
  exact ⟨hconfig, hsource, hinputs⟩

theorem sameSurroundings_of_settleRestart {s t : State} (h : s.settleRestart = .next t) : SameSurroundings s t := by
  constructor <;> rw [(State.settleRestart_frame h).1]

theorem sameSurroundings_of_restartFound {s t : State} {phase : RestartPhase} (h : s.restartFound phase = .next t) :
    SameSurroundings s t := by
  constructor <;> rw [(State.restartFound_frame h).1]

/-- A running command only reads what is outside the core (R70, R71). -/
theorem sameSurroundings_of_step_running {s t : State} (ha : s.activity ≠ .idle) (h : step s = .next t) :
    SameSurroundings s t := by
  cases hact : s.activity with
  | idle => exact absurd hact ha
  | reading run =>
    cases step_reading_next hact h with
    | marker acquired _ hexec =>
      exact acquired.sameSurroundings.trans
        (sameSurroundings_of_marker (decodeCode_isMarker acquired.some acquired.legal) hexec)
    | _ => exact ⟨rfl, rfl, rfl⟩
  | restarting phase run =>
    cases step_restarting_next hact h with
    | found acquired hfound => exact acquired.sameSurroundings.trans (sameSurroundings_of_restartFound hfound)
    | _ => exact ⟨rfl, rfl, rfl⟩

/-- A command but RESET_STREAM touches nothing outside the core in the step that takes it. -/
theorem sameSurroundings_of_command {s t : State} {code : BitVec 2} (hne : code ≠ 1)
    (h : exec (decodeCommand code) s = .next t) : SameSurroundings s t := by
  rcases Laws.decodeCommand_cases code with hc | hc | hc | hc <;> rw [hc] at h
  · obtain ⟨-, rfl⟩ := execNop_next.1 h
    exact ⟨rfl, rfl, rfl⟩
  · exact absurd hc (by revert hne; revert code; decide)
  · obtain ⟨-, ⟨-, rfl⟩ | ⟨-, rfl⟩⟩ := execReadMarkers_next.1 h <;> exact ⟨rfl, rfl, rfl⟩
  · obtain ⟨-, ⟨-, rfl⟩ | ⟨-, -, -, rfl⟩ | ⟨-, -, -, h⟩⟩ := execReadRestartMarker_next.1 h
    · exact ⟨rfl, rfl, rfl⟩
    · exact ⟨rfl, rfl, rfl⟩
    · exact sameSurroundings_of_settleRestart h

/-- `src'` supplies in canonical form all that `src` supplies, and maybe more behind it. -/
structure ByteSource.Extends (src src' : ByteSource) : Prop where
  peek : ∀ a, a < src.avail → src'.peek a = src.peek a
  wf   : Memory.wf src'.bytes

theorem ByteSource.Extends.refl {src : ByteSource} (h : Memory.wf src.bytes) : src.Extends src := ⟨fun _ _ => rfl, h⟩

theorem ByteSource.Extends.fill {src : ByteSource} (bs : List Byte) (h : Memory.wf src.bytes) :
    src.Extends (src.fill bs) := ⟨fun _ ha => peek_fill_of_lt bs h ha, fill_wf bs h⟩

/-- More positions accounted for (R73). -/
theorem ByteSource.Extends.account {src : ByteSource} (n : Nat) (h : Memory.wf src.bytes) :
    src.Extends { src with avail := src.avail + n } :=
  ⟨fun _ ha => by simp only [ByteSource.peek, if_pos ha, if_pos (Nat.lt_add_right n ha)], h⟩

/-- The source only grows in a step of an idle core that does not take RESET_STREAM (R71, R72), a fill and an accounting
the two inputs that make it grow. -/
theorem supplied_kept_of_step_idle {s t : State} (ha : s.activity = .idle) (hr : ¬s.TakesReset) (h : step s = .next t) :
    t.config = s.config ∧ (Memory.wf s.source.bytes → s.source.Extends t.source) := by
  rcases step_idle ha h with ⟨-, rfl⟩ | ⟨code, rest, hin, h⟩ | ⟨bs, rest, -, rfl⟩ | ⟨n, rest, -, -, rfl⟩ | ⟨rest, -, rfl⟩ |
    ⟨n, rest, -, -, -, -, rfl⟩ | ⟨code, rest, -, -, -, -, -, rfl⟩ | ⟨v, rest, -, rfl⟩
  · exact ⟨rfl, .refl⟩
  · have hne : code ≠ 1 := fun hc => hr ⟨ha, by rw [hin, hc]; rfl⟩
    obtain ⟨hconfig, hsource, -⟩ := sameSurroundings_of_command hne h
    exact ⟨hconfig, fun hm => by rw [hsource]; exact .refl hm⟩
  · exact ⟨rfl, .fill bs⟩
  · exact ⟨rfl, .account n⟩
  · exact ⟨rfl, fun hm => ⟨fun _ _ => rfl, hm⟩⟩
  · exact ⟨rfl, .refl⟩
  · exact ⟨rfl, .refl⟩
  · exact ⟨rfl, .refl⟩

/-- The same of any step: a running command leaves the source as it stands. -/
theorem supplied_kept_of_step {s t : State} (hr : ¬s.TakesReset) (h : step s = .next t) :
    t.config = s.config ∧ (Memory.wf s.source.bytes → s.source.Extends t.source) := by
  by_cases ha : s.activity = .idle
  · exact supplied_kept_of_step_idle ha hr h
  · obtain ⟨hconfig, hsource, -⟩ := sameSurroundings_of_step_running ha h
    exact ⟨hconfig, fun hm => by rw [hsource]; exact .refl hm⟩

/-- Settles O50: RESET_STREAM binds an empty source, any other step at most extends the one it finds. -/
theorem streamIsReadOnly : Obligations.StreamIsReadOnly := by
  intro s t h
  have hrunning : s.activity ≠ .idle → t.source = s.source ∧ t.inputs = s.inputs := fun ha => by
    obtain ⟨-, hsource, hinputs⟩ := sameSurroundings_of_step_running ha h
    exact ⟨hsource, hinputs⟩
  by_cases hr : s.TakesReset
  · obtain rfl := step_reset hr h
    exact ⟨rfl, hrunning, fun _ hne => absurd hr.2 hne, fun _ => Memory.wf_nil⟩
  · obtain ⟨hconfig, hext⟩ := supplied_kept_of_step hr h
    exact ⟨hconfig, hrunning, fun hm _ a ha => (hext hm).peek a ha, fun hm => (hext hm).wf⟩

end Sys2Proof.Machine

/-! SUPPORT. The readers of the segment payloads, the other way round: a payload a reader accepts is what the assembler writes
for the operands it answers (`30_encoding.md` R102 to R109, R122, R123). -/

namespace Sys2Proof.Machine

/-! ### Frame and scan headers -/

theorem eq_encodeFrame_of_readFrame {code : Byte} {l : Half} {p : List Byte} {o : FrameOperands}
    (hp : p.length + 2 = l.toNat) (h : readFrame code l p = .ok o) : p = encodeFrame o := by
  unfold readFrame at h
  split at h
  next pr y1 y0 x1 x0 nf rest =>
    split at h
    · cases h
    next =>
      split at h
      · cases h
      next hlen =>
        cases h
        obtain ⟨hbytes, hcount⟩ := encode_frameComponents nf.toNat rest (by simp at hp; omega)
        simp [encodeFrame, halfBytes_be16, hbytes, hcount]
  next => cases h

theorem eq_encodeScan_of_readScan {l : Half} {p : List Byte} {o : ScanOperands} (hp : p.length + 2 = l.toNat)
    (h : readScan l p = .ok o) : p = encodeScan o := by
  unfold readScan at h
  split at h
  next ns rest =>
    split at h
    · cases h
    next hns =>
      obtain ⟨hbytes, hcount⟩ := encode_scanComponents ns.toNat rest (by simp at hp; omega)
      split at h
      next cs ss se a hcs =>
        cases h
        rw [hcs] at hbytes hcount
        simp only [encodeScan, pack_high_low, hcount, BitVec.ofNat_toNat, BitVec.setWidth_eq, List.cons_append, hbytes]
      next => cases h
  next => cases h

/-! ### Lists of definitions -/

/-- Accepted quantisation definitions are well formed, and the payload is what they assemble to (R104, R190). -/
theorem readQuantDefs_ok {l : Half} {n : Nat} {p : List Byte} {defs : List QuantDef}
    (h : readQuantDefs l n p = .ok defs) : (∀ d ∈ defs, d.wf) ∧ p = defs.flatMap encodeQuantDef := by
  induction n generalizing p defs with
  | zero =>
    cases p with
    | nil => cases h; simp
    | cons b rest => cases h
  | succ n ih =>
    cases p with
    | nil => cases h; simp
    | cons b rest =>
      simp only [readQuantDefs] at h
      split at h
      next ht =>
        split at h
        · cases h
        next hlen =>
          split at h
          · cases h
          next ds hds =>
            cases h
            obtain ⟨hwf, hrest⟩ := ih hds
            obtain ⟨hbytes, h64, hsmall⟩ := encode_coefficients (highNibble b)
              (rest.take (coefficientBytes (highNibble b))) (by simp; omega)
            refine ⟨List.forall_mem_cons.2 ⟨⟨h64, hsmall⟩, hwf⟩, ?_⟩
            simp only [List.flatMap_cons, encodeQuantDef, BitVec.ofNat_toNat, BitVec.setWidth_eq, pack_high_low,
              hbytes, ← hrest, List.cons_append, List.take_append_drop]
      next => cases h

/-- The payload of accepted Huffman definitions is what they assemble to (R105, R191). -/
theorem eq_encode_of_readHuffDefs {l : Half} {n : Nat} {p : List Byte} {defs : List HuffDef}
    (h : readHuffDefs l n p = .ok defs) : p = defs.flatMap encodeHuffDef := by
  induction n generalizing p defs with
  | zero =>
    cases p with
    | nil => cases h; rfl
    | cons b rest => cases h
  | succ n ih =>
    cases p with
    | nil => cases h; rfl
    | cons b rest =>
      simp only [readHuffDefs] at h
      split at h
      next h16 =>
        split at h
        · cases h
        next hroom =>
          split at h
          next hi =>
            split at h
            · cases h
            next ds hds =>
              cases h
              simp only [List.flatMap_cons, encodeHuffDef, BitVec.ofNat_toNat, BitVec.setWidth_eq, pack_high_low,
                ← ih hds, Vector.toList_mk, List.cons_append, List.append_assoc, ← List.drop_drop,
                List.take_append_drop]
          next => cases h
      next => cases h

/-- The payload of accepted arithmetic-conditioning entries is what they assemble to (R106, R192). -/
theorem eq_encode_of_readDacEntries {l : Half} {p : List Byte} {es : List DacEntry}
    (h : readDacEntries l p = .ok es) : p = es.flatMap encodeDacEntry := by
  induction p using readDacEntries.induct l generalizing es with
  | case1 => cases h; rfl
  | case2 => cases h
  | case3 index value rest hi hb => simp [readDacEntries, hi, hb] at h
  | case4 index value rest hi hb f hr ih => simp [readDacEntries, hi, hb, hr] at h
  | case5 index value rest hi hb es' hr ih =>
    simp [readDacEntries, hi, hb, hr] at h
    subst h
    simp only [List.flatMap_cons, encodeDacEntry, BitVec.ofNat_toNat, BitVec.setWidth_eq, List.cons_append,
      List.nil_append, ← ih hr]
  | case6 index value rest hi => simp [readDacEntries, hi] at h

/-! ### Application extensions -/

theorem readJfif_encode (j : JfifOperands) : readJfif (encodeJfif j) = some j := by
  simp [readJfif, encodeJfif, jfifSignature, halfBytes, be16_halfBytes]

theorem eq_encodeJfif_of_readJfif {p : List Byte} {j : JfifOperands} (h : readJfif p = some j) : p = encodeJfif j := by
  unfold readJfif at h
  split at h
  next hsig =>
    split at h
    next hfields =>
      cases h
      rw [← List.take_append_drop 5 p, hsig, hfields]
      simp [encodeJfif, halfBytes_be16]
    next => cases h
  next => cases h

theorem readAdobe_encode (a : AdobeOperands) : readAdobe (encodeAdobe a) = some a := by
  simp [readAdobe, encodeAdobe, adobeSignature, halfBytes, be16_halfBytes]

theorem eq_encodeAdobe_of_readAdobe {p : List Byte} {a : AdobeOperands} (h : readAdobe p = some a) :
    p = encodeAdobe a := by
  unfold readAdobe at h
  split at h
  next hsig =>
    split at h
    next hfields =>
      cases h
      rw [← List.take_append_drop 5 p, hsig, hfields]
      simp [encodeAdobe, halfBytes_be16]
    next => cases h
  next => cases h

end Sys2Proof.Machine

/-! PROOF. Encoding (`30_encoding.md`): each reader accepts exactly what the assembler writes for well-formed operands, and the
words of the opcode map and of the command port correspond to the instructions. -/

namespace Sys2Proof.Machine

/-! ### Operands -/

/-- A length field is the word of the number it holds. -/
theorem length_eq_ofNat {l : Half} {n : Nat} (h : n = l.toNat) : l = BitVec.ofNat 16 n := by
  rw [h, BitVec.ofNat_toNat, BitVec.setWidth_eq]

/-- Settles O3. -/
theorem frameOperandsRoundTrip : Obligations.FrameOperandsRoundTrip := by
  intro code l p o hp
  constructor
  · exact fun h => ⟨readFrame_wf hp h, eq_encodeFrame_of_readFrame hp h⟩
  · rintro ⟨hw, rfl⟩
    rw [length_eq_ofNat hp, readFrame_encode code hw]

/-- Settles O4. -/
theorem scanOperandsRoundTrip : Obligations.ScanOperandsRoundTrip := by
  intro l p o hp
  constructor
  · exact fun h => ⟨readScan_wf hp h, eq_encodeScan_of_readScan hp h⟩
  · rintro ⟨hw, rfl⟩
    rw [length_eq_ofNat hp, readScan_encode hw]

/-- Settles O5. -/
theorem quantDefinitionsRoundTrip : Obligations.QuantDefinitionsRoundTrip := by
  intro l p defs
  constructor
  · exact readQuantDefs_ok
  · rintro ⟨hw, rfl⟩
    exact readQuantDefs_encode l hw le_rfl

/-- Settles O6. -/
theorem huffDefinitionsRoundTrip : Obligations.HuffDefinitionsRoundTrip := by
  intro l p defs
  constructor
  · exact fun h => ⟨readHuffDefs_wf h, eq_encode_of_readHuffDefs h⟩
  · rintro ⟨hw, rfl⟩
    exact readHuffDefs_encode l hw le_rfl

/-- Settles O7. -/
theorem dacEntriesRoundTrip : Obligations.DacEntriesRoundTrip := by
  intro l p es
  constructor
  · exact fun h => ⟨readDacEntries_wf h, eq_encode_of_readDacEntries h⟩
  · rintro ⟨hw, rfl⟩
    exact readDacEntries_encode l hw

/-- Settles O8. -/
theorem applicationPayloadsRoundTrip : Obligations.ApplicationPayloadsRoundTrip :=
  ⟨fun _ j => ⟨eq_encodeJfif_of_readJfif, fun h => h ▸ readJfif_encode j⟩,
    fun _ a => ⟨eq_encodeAdobe_of_readAdobe, fun h => h ▸ readAdobe_encode a⟩⟩

/-! ### Words -/

open Laws.CodeRoundTrip in
theorem decodeWord_encode (i : Instr) : i.wf → decodeWord (encode i) = some i := by
  cases i
  exacts [stuff, fill, tem, res _, sof0, sof1, sof2, sof3, dht, sof5, sof6, sof7, jpg, sof9, sof10, sof11, dac, sof13,
    sof14, sof15, rst0, rst1, rst2, rst3, rst4, rst5, rst6, rst7, soi, eoi, sos, dqt, dnl, dri, dhp, exp, app0, app1, app2,
    app3, app4, app5, app6, app7, app8, app9, app10, app11, app12, app13, app14, app15, jpg0, jpg1, jpg2, jpg3, jpg4, jpg5,
    jpg6, jpg7, jpg8, jpg9, jpg10, jpg11, jpg12, jpg13, com, nop, resetStream, readMarkers, readRestartMarker]

theorem encode_decodeCode (code : Byte) : encode (decodeCode code) = .marker (introducer ++ code) := by
  revert code; decide

theorem encode_decodeCommand (code : BitVec 2) : encode (decodeCommand code) = .command code := by
  revert code; decide

/-- Settles O1. -/
theorem wordsAndInstructionsCorrespond : Obligations.WordsAndInstructionsCorrespond :=
  ⟨decodeWord_encode, encode_decodeCode, encode_decodeCommand⟩

/-- Settles O2: closed words, decoded by computation. -/
theorem sampleWordsDecode : Obligations.SampleWordsDecode := by
  unfold Obligations.SampleWordsDecode
  decide

end Sys2Proof.Machine

/-! PROOF. What an accepted quantisation or arithmetic-conditioning segment defines (`42_table_segments.md` R190, R192). -/

namespace Sys2Proof.Machine

/-- A marker whose decoder comes down to a commit with room, the pending code cleared behind it (R281). -/
theorem exec_of_commit {i : Instr} {s u : State} {n : Nat} (hi : isMarker i = true)
    (h : decoderOf i s = .commit (u.advance n)) (hroom : u.Room n) :
    exec i s = .next { u with pos := BitVec.ofNat 64 (u.pos.toNat + n), pendingMarker := 0 } := by
  rw [exec_eq_complete hi, h, Decoded.commit_advance_of_room _ hroom, State.complete_done]
  rfl

theorem zigzag_count (z : Fin 64) : zigzag.count z = 1 := by revert z; decide

/-- Settles O24: the definitions are applied one after the other, so the last one of a table stands. -/
theorem quantTablesDefined : Obligations.QuantTablesDefined := by
  refine ⟨⟨rfl, zigzag_count⟩, fun defs s hw hseg hroom => ?_⟩
  exact ⟨defs.foldl QuantRegs.define s.quant, QuantRegs.define_foldl defs s.quant hw,
    exec_of_commit (i := .dqt) rfl (decodeDqt_encode hw hseg) hroom⟩

/-- Settles O28: the entries are applied one after the other, so the last one of an index stands. -/
theorem arithConditioned : Obligations.ArithConditioned := by
  intro es s hw hseg hroom
  have hdec := decodeDac_encode hw hseg
  rw [encodeDacEntries_length] at hdec
  exact ⟨es.foldl ArithRegs.apply s.arith, ArithRegs.apply_foldl es s.arith, exec_of_commit (i := .dac) rfl hdec hroom⟩

end Sys2Proof.Machine

/-! PROOF. How commands and markers come to be executed (`30_encoding.md` R120, `40_marker_scanner.md` R142,
`44_marker_reader.md` R281). -/

namespace Sys2Proof.Machine

/-! ### Commands -/

theorem State.whenIdle_of_busy {s : State} (k : StepOutcome) (h : s.activity ≠ .idle) :
    s.whenIdle k = .refused .commandWhileRunning := by
  unfold State.whenIdle
  split
  · contradiction
  · rfl

/-- Settles O15: every command begins with `State.whenIdle`. -/
theorem commandsRefusedWhileBusy : Obligations.CommandsRefusedWhileBusy := by
  intro s hbusy i hi
  fin_cases hi <;> exact State.whenIdle_of_busy _ hbusy

/-! ### The decoded instruction -/

/-- Bytes that decode begin with the introducer and the code of their instruction (R100). -/
theorem decode_ok {bs rest : List Byte} {i : Instr} (h : decode bs = .ok (i, rest)) :
    ∃ code tail, bs = introducer :: code :: tail ∧ i = decodeCode code := by
  unfold decode at h
  split at h
  next b code tail =>
    split at h
    next hb =>
      refine ⟨code, tail, by rw [hb], ?_⟩
      split at h
      next hfill => cases h; exact hfill.symm
      next => cases h; rfl
    next => cases h
  next => cases h

theorem fetch_reading {s : State} {run : Nat} (ha : s.activity = .reading run) : fetch s = fetchMarker s run := by
  simp [fetch, ha]

/-- A pending marker goes straight to the dispatcher (R281 (c)). -/
theorem fetch_pending {s : State} {run : Nat} (ha : s.activity = .reading run) (h0 : s.pendingMarker ≠ 0)
    (hf : s.pendingMarker ≠ 0xFF) : fetch s = .instr (decodeCode s.pendingMarker) s := by
  rw [fetch_reading ha, fetchMarker, if_pos (show s.hasPending = true from bne_iff_ne.2 h0), fetchPending]
  exact if_neg hf

/-- `NextMarker` sees an introducer with a byte behind it (R142). -/
theorem fetch_pair {s : State} {run : Nat} {code : Byte} (ha : s.activity = .reading run) (hp : s.pendingMarker = 0)
    (hr : s.rstate ≠ .awaitingStartOfImage) (ht : s.token run = .pair code) : fetch s = fetchPair s code := by
  simp [fetch_reading ha, fetchMarker, State.hasPending, hp, hr, fetchNext, ht]

/-- A marker at `pos` with nothing discarded before it: the commit of `NextMarker` (R142, R145). -/
theorem State.acquire_of_clean {s : State} (code : Byte) (ha : s.activity = .reading 0) (hd : s.discardedByteCount = 0)
    (hroom : s.Room 2) :
    s.acquire code = some { s with pendingMarker := code, pos := BitVec.ofNat 64 (s.pos.toNat + 2) } := by
  have hrun : s.activity.run + 2 = 2 := by rw [ha]; rfl
  have hrewind : s.activity.rewind = s.activity := by rw [ha]; rfl
  have hevents : (s.warnExtraneous code).events = s.events := by
    rw [State.warnExtraneous_events, if_pos hd, List.append_nil]
  refine State.acquire_some.2 ⟨by rwa [hrun], ?_⟩
  rw [hrun, hrewind, hevents, ← hd]

theorem fetchPair_of_escape {s : State} {code : Byte} (h : code = introducer ∨ code = 0) :
    fetchPair s code = .instr (decodeCode code) s := if_pos h

theorem fetchPair_of_acquire {s u : State} {code : Byte} (hf : code ≠ introducer) (h0 : code ≠ 0)
    (hu : s.acquire code = some u) : fetchPair s code = .instr (decodeCode code) u := by
  rw [fetchPair, if_neg (not_or.2 ⟨hf, h0⟩), hu, fetchAcquired]

/-- Settles O42: from the inputs, from the pending code, and from the two bytes at `pos`. -/
theorem stepRunsDecoded : Obligations.StepRunsDecoded := by
  intro s
  refine ⟨fun code rest ha hin => ?_, fun run ha h0 hf => step_of_instr (fetch_pending ha h0 hf), ?_⟩
  · exact step_of_instr (by rw [fetch_idle ha, hin]; rfl)
  intro bs i rest ha hp hr hh hdec
  obtain ⟨code, tail, rfl, rfl⟩ := decode_ok hdec
  have ht : s.token 0 = .pair code := State.token_pair.2 ⟨fun _ => hh 0 (by simp), hh 1 (by simp)⟩
  have hfetch := fetch_pair ha hp hr ht
  constructor
  · intro hi
    rw [Laws.decodeCode_fill_iff, Laws.decodeCode_stuff_iff] at hi
    exact step_of_instr (hfetch.trans (fetchPair_of_escape hi))
  · intro hfill hstuff hd hroom
    rw [Ne, Laws.decodeCode_fill_iff] at hfill
    rw [Ne, Laws.decodeCode_stuff_iff] at hstuff
    have hu := State.acquire_of_clean code ha hd hroom
    exact ⟨code, encode_decodeCode code, step_of_instr (hfetch.trans (fetchPair_of_acquire hfill hstuff hu))⟩

end Sys2Proof.Machine

/-! PROOF. The marker scanner: the two escapes, and one turn of each command that looks for a marker
(`40_marker_scanner.md` R142 to R146, `44_marker_reader.md` R281, `45_restart_resync.md` R320 to R325). -/

namespace Sys2Proof.Machine

/-! ### Escapes -/

/-- STUFF with room behind a run of known length (R144). -/
theorem execStuff_of_room {s : State} {run : Nat} (hrun : s.activity.run = run) (hroom : s.Room (run + 2)) :
    exec .stuff s = .next
      { s with
          discardedByteCount := sat32Add s.discardedByteCount 2
          pos := BitVec.ofNat 64 (s.pos.toNat + (run + 2))
          activity := s.activity.rewind } := by
  subst hrun
  exact execStuff_next.2 ⟨hroom, rfl⟩

/-- Settles O38. -/
theorem escapes : Obligations.Escapes := by
  intro s run
  refine ⟨fun ha => execFill_next.2 (by rw [ha]; rfl), fun phase ha => execFill_next.2 (by rw [ha]; rfl),
    fun hroom => ⟨fun ha => ?_, fun phase ha => ?_⟩⟩
  · rw [execStuff_of_room (by rw [ha]; rfl) hroom, ha]; rfl
  · rw [execStuff_of_room (by rw [ha]; rfl) hroom, ha]; rfl

/-! ### What a look of the scanner runs -/

theorem fetch_restarting {s : State} {phase : RestartPhase} {run : Nat} (ha : s.activity = .restarting phase run) :
    fetch s = fetchRestart s phase run := by
  simp [fetch, ha]

/-- Past the start of image READ_MARKERS without a pending marker is at `NextMarker` (R281). -/
theorem fetch_next {s : State} {run : Nat} (ha : s.activity = .reading run) (hp : s.pendingMarker = 0)
    (hr : s.rstate ≠ .awaitingStartOfImage) : fetch s = fetchNext s run := by
  simp [fetch_reading ha, fetchMarker, State.hasPending, hp, hr]

theorem State.Scans.activity_run {s : State} {run : Nat} (h : s.Scans run) : s.activity.run = run := by
  rcases h with ⟨ha, -⟩ | ⟨phase, ha⟩ <;> rw [ha] <;> rfl

theorem State.Scans.step_starved {s : State} {run : Nat} (h : s.Scans run) (ht : s.token run = .starved) :
    step s = .next s.suspended := by
  refine step_of_settled ?_
  rcases h with ⟨ha, hp, hr⟩ | ⟨phase, ha⟩
  · rw [fetch_next ha hp hr, fetchNext, ht]; rfl
  · rw [fetch_restarting ha, fetchRestart, ht]; rfl

/-- A garbage byte is discarded, the Cursor back at `pos` (R142). -/
theorem State.Scans.step_garbage {s : State} {run : Nat} (h : s.Scans run) (ht : s.token run = .garbage)
    (hroom : s.Room 1) :
    step s = .next
      { s with
          discardedByteCount := sat32Add s.discardedByteCount 1
          pos := BitVec.ofNat 64 (s.pos.toNat + 1)
          activity := s.activity.rewind } := by
  have hfetch : fetch s = .settled s.discardGarbage := by
    rcases h with ⟨ha, hp, hr⟩ | ⟨phase, ha⟩
    · rw [fetch_next ha hp hr, fetchNext, ht]
    · rw [fetch_restarting ha, fetchRestart, ht]
  rw [step_of_settled hfetch]
  exact State.discard_next.2 ⟨hroom, rfl⟩

/-- An escape is executed as it stands, under either command (R142). -/
theorem State.Scans.step_escape {s : State} {run : Nat} {code : Byte} (h : s.Scans run) (ht : s.token run = .pair code)
    (hcode : code = introducer ∨ code = 0) : step s = exec (decodeCode code) s := by
  refine step_of_instr ?_
  rcases h with ⟨ha, hp, hr⟩ | ⟨phase, ha⟩
  · rw [fetch_pair ha hp hr ht, fetchPair_of_escape hcode]
  · rw [fetch_restarting ha, fetchRestart, ht]
    exact if_pos hcode

/-- The commit of a marker found, with room for it (R142, R145). -/
theorem State.Scans.acquire_of_room {s : State} {run : Nat} (h : s.Scans run) (code : Byte) (hroom : s.Room (run + 2)) :
    s.acquire code = some
      { s with
          events := s.events ++
            (if s.discardedByteCount = 0 then []
              else [{ kind := .extraneousData, a := s.discardedByteCount, b := code.setWidth 32 }])
          discardedByteCount := 0
          pendingMarker := code
          pos := BitVec.ofNat 64 (s.pos.toNat + (run + 2))
          activity := s.activity.rewind } := by
  rw [← h.activity_run] at hroom ⊢
  exact State.acquire_some.2 ⟨hroom, by rw [State.warnExtraneous_events]⟩

/-- What both commands do when `NextMarker` finds no marker: they wait, discard a garbage byte or run an escape (R142). -/
theorem State.Scans.looks {s : State} {run : Nat} (h : s.Scans run) :
    (run = 0 → s.source.peek s.pos.toNat = none → step s = .next s.suspended) ∧
    (∀ b, run = 0 → s.source.peek s.pos.toNat = some b → b ≠ 0xFF → s.Room 1 →
      step s = .next
        { s with
            discardedByteCount := sat32Add s.discardedByteCount 1
            pos := BitVec.ofNat 64 (s.pos.toNat + 1)
            activity := s.activity.rewind }) ∧
    ((run = 0 → s.source.peek s.pos.toNat = some 0xFF) →
      (s.source.peek (s.pos.toNat + run + 1) = none → step s = .next s.suspended) ∧
      (s.source.peek (s.pos.toNat + run + 1) = some 0xFF → step s = exec .fill s) ∧
      (s.source.peek (s.pos.toNat + run + 1) = some 0x00 → step s = exec .stuff s)) := by
  refine ⟨fun hrun hnone => ?_, fun b hrun hb hne hroom => ?_,
    fun hfirst => ⟨fun hnone => ?_, fun hff => ?_, fun h00 => ?_⟩⟩
  · exact h.step_starved (State.token_starved.2 (.inl ⟨hrun, hnone⟩))
  · exact h.step_garbage (State.token_garbage.2 ⟨hrun, b, hb, hne⟩) hroom
  · exact h.step_starved (State.token_starved.2 (.inr ⟨hfirst, hnone⟩))
  · exact h.step_escape (State.token_pair.2 ⟨hfirst, hff⟩) (.inl rfl)
  · exact h.step_escape (State.token_pair.2 ⟨hfirst, h00⟩) (.inr rfl)

/-! ### READ_MARKERS -/

/-- Settles O39: where a marker is found it is acquired and dispatched. -/
theorem scannerTurn : Obligations.ScannerTurn := by
  intro s run ha hp hr
  have hscans : s.Scans run := .inl ⟨ha, hp, hr⟩
  have hrewind : s.activity.rewind = .reading 0 := by rw [ha]; rfl
  obtain ⟨hstarved, hgarbage, hpair⟩ := hscans.looks
  rw [hrewind] at hgarbage
  refine ⟨hstarved, hgarbage, fun hfirst => ?_⟩
  obtain ⟨hnone, hfill, hstuff⟩ := hpair hfirst
  refine ⟨hnone, hfill, hstuff, fun c hc h0 hf hroom => ?_⟩
  have hu := hscans.acquire_of_room c hroom
  rw [hrewind] at hu
  exact step_of_instr ((fetch_pair ha hp hr (State.token_pair.2 ⟨hfirst, hc⟩)).trans (fetchPair_of_acquire hf h0 hu))

/-- Before the start of image READ_MARKERS is at `FirstMarker` (R281). -/
theorem fetch_first {s : State} {run : Nat} (ha : s.activity = .reading run) (hp : s.pendingMarker = 0)
    (hr : s.rstate = .awaitingStartOfImage) : fetch s = fetchFirst s := by
  simp [fetch_reading ha, fetchMarker, State.hasPending, hp, hr]

theorem State.firstLook_of_lt {s : State} (h : s.source.avail < s.pos.toNat + 2) : s.firstLook = .starved := by
  rw [State.firstLook, ByteSource.has_of_lt h]; rfl

/-- `FirstMarker` judges the two bytes that stand at `pos` (R146). -/
theorem State.firstLook_of_holds {s : State} {c1 c2 : Byte} (h : s.source.Holds s.pos.toNat [c1, c2]) :
    s.firstLook = if c1 = introducer ∧ c2 = startOfImageCode then .found else .wrong c1 c2 := by
  obtain ⟨hle, rfl, rfl⟩ := ByteSource.holds_pair.1 h
  rw [State.firstLook, ByteSource.has_of_le hle]; rfl

/-- Settles O40. -/
theorem firstMarkerTurn : Obligations.FirstMarkerTurn := by
  intro s run ha hp hr
  have hfetch := fetch_first ha hp hr
  refine ⟨fun hlt => ?_, fun c1 c2 hh => ⟨fun hwrong => ?_, fun hfound hroom => ?_⟩⟩
  · exact step_of_settled (by rw [hfetch, fetchFirst, State.firstLook_of_lt hlt]; rfl)
  · have hlook : s.firstLook = .wrong c1 c2 := (State.firstLook_of_holds hh).trans (if_neg hwrong)
    rw [step_of_settled (by rw [hfetch, fetchFirst, hlook]), State.raiseFatal_fatalError]
    rfl
  · have hlook : s.firstLook = .found := (State.firstLook_of_holds hh).trans (if_pos hfound)
    refine step_of_instr ?_
    rw [hfetch, fetchFirst, hlook, State.acquireFirst_some.2 ⟨hroom, rfl⟩, ha]
    rfl

/-! ### READ_RESTART_MARKER -/

/-- `Resync`'s turn sets the activity whatever it classifies. -/
theorem State.resyncTurn_activity (s : State) (a : Activity) : { s with activity := a }.resyncTurn = s.resyncTurn := by
  unfold State.resyncTurn
  cases classify s.pendingMarker s.nextRestartIndex <;> rfl

/-- A pending marker is settled in the same way wherever the command stands. -/
theorem State.settleRestart_activity (s : State) (a : Activity) :
    { s with activity := a }.settleRestart = s.settleRestart := by
  unfold State.settleRestart State.resync
  rw [← State.resyncTurn_activity (s.emit ..) a]
  rfl

/-- READ_RESTART_MARKER within a scan, a marker pending and the latch clear (R320). -/
theorem execReadRestartMarker_pending {s : State} (ha : s.activity = .idle) (hl : s.latch.fatal = false)
    (hr : s.rstate = .inScan) (hp : s.pendingMarker ≠ 0) : exec .readRestartMarker s = s.settleRestart := by
  obtain ⟨t, ht⟩ := s.settleRestart_is_next
  rw [ht]
  exact execReadRestartMarker_next.2 ⟨ha, .inr (.inr ⟨hl, hr, hp, ht⟩)⟩

/-- `NextMarker` found a marker for READ_RESTART_MARKER: it is acquired and classified (R320, R323). -/
theorem step_restart_found {s u : State} {phase : RestartPhase} {run : Nat} {code : Byte}
    (ha : s.activity = .restarting phase run) (ht : s.token run = .pair code) (h0 : code ≠ 0) (hf : code ≠ 0xFF)
    (hu : s.acquire code = some u) : step s = u.restartFound phase := by
  refine step_of_settled ?_
  rw [fetch_restarting ha, fetchRestart, ht]
  exact (if_neg (not_or.2 ⟨hf, h0⟩)).trans (by rw [hu]; rfl)

/-- Settles O41: a marker found while seeking is settled as a pending one is, and while resynchronising it takes a turn of
`Resync`. -/
theorem restartScanTurn : Obligations.RestartScanTurn := by
  intro s phase run ha
  have hscans : s.Scans run := .inr ⟨phase, ha⟩
  have hrewind : s.activity.rewind = .restarting phase 0 := by rw [ha]; rfl
  obtain ⟨hstarved, hgarbage, hpair⟩ := hscans.looks
  rw [hrewind] at hgarbage
  refine ⟨hstarved, hgarbage, fun hfirst => ?_⟩
  obtain ⟨hnone, hfill, hstuff⟩ := hpair hfirst
  refine ⟨hnone, hfill, hstuff, fun c hc h0 hf hroom => ?_⟩
  have hstep := step_restart_found ha (State.token_pair.2 ⟨hfirst, hc⟩) h0 hf (hscans.acquire_of_room c hroom)
  constructor
  · rintro rfl hscan hlatch
    rw [hstep, execReadRestartMarker_pending]
    exacts [(State.settleRestart_activity _ .idle).symm, rfl, hlatch, hscan, h0]
  · rintro rfl
    rw [hstep]
    cases hclass : classify c s.nextRestartIndex with
    | scanForward => exact State.resyncTurn_next.2 (.inl ⟨hclass, rfl⟩)
    | leave => exact State.resyncTurn_next.2 (.inr (.inl ⟨hclass, rfl⟩))
    | discard => exact State.resyncTurn_next.2 (.inr (.inr ⟨hclass, rfl⟩))

end Sys2Proof.Machine

/-! PROOF. Start of image, frame headers and scan headers (`41_frame_and_scan_headers.md` R160 to R177): what each is
accepted with, what it is refused for in the order of its tests, and what it waits for. -/

namespace Sys2Proof.Machine

/-! ### Markers that raise a fatal error -/

/-- A marker whose decoder raises a fatal error (R357). -/
theorem exec_of_fatalError {i : Instr} {s : State} {c : FatalCause} {i0 i1 : Half} (hi : isMarker i = true)
    (h : decoderOf i s = .fatal (fatalError c i0 i1)) : exec i s = .next (s.failed c.code i0 i1) := by
  rw [exec_eq_complete hi, h, State.complete_fatalError]

theorem exec_of_badLength {i : Instr} {s : State} {code : Byte} {l : Half} (hi : isMarker i = true)
    (h : decoderOf i s = .fatal (badLength code l)) : exec i s = .next (s.failed 5 (code.setWidth 16) l) :=
  exec_of_fatalError hi h

/-- A length below 2 is refused as soon as it is read (R160 (c)). -/
theorem State.buffered_of_length_lt {s : State} {l : Half} (hl : s.source.half s.pos.toNat = some l) (h2 : l.toNat < 2)
    (code : Byte) (k : Half → List Byte → Decoded) :
    s.buffered code lengthAtLeastTwo k = .fatal (badLength code l) := by
  have hno : ¬lengthAtLeastTwo l = true := by rw [lengthAtLeastTwo_iff]; omega
  simp only [State.buffered, hl]
  exact if_neg hno

/-! ### Start of image -/

/-- Settles O19. -/
theorem startOfImage : Obligations.StartOfImage := by
  intro s
  constructor
  · intro seen
    exact exec_of_fatalError (i := .soi) rfl (if_pos seen)
  · intro fresh
    have hdec : decodeSoi s = .done s.startImage .proceed := if_neg (by simp [fresh])
    rw [exec_eq_complete rfl, decoderOf, hdec, State.complete_done]
    rfl

/-! ### Frame headers -/

theorem isMarker_of_frameCode {i : Instr} {code : Byte} (h : frameCode i = some code) : isMarker i = true := by
  cases i <;> cases h <;> rfl

/-- The five accepted frame codes run one decoder (R163 to R167). -/
theorem decoderOf_of_frameCode {i : Instr} {code : Byte} (h : frameCode i = some code) (s : State) :
    decoderOf i s = decodeFrameHeader code s := by
  cases i <;> cases h <;> rfl

/-- Settles O20: the components are the ones `allocateComponents` lays out. -/
theorem frameHeaderAccepted : Obligations.FrameHeaderAccepted := by
  intro ic hic o s hw fresh hseg hroom
  have hcode : frameCode ic.1 = some ic.2 := by fin_cases hic <;> rfl
  obtain ⟨hfields, hscanned⟩ := allocateComponents_spec s.freeCount o.components
  have hdec := (decoderOf_of_frameCode hcode s).trans (decodeFrameHeader_encode ic.2 hw fresh hseg)
  rw [encodeFrame_length] at hdec
  exact ⟨allocateComponents s.freeCount o.components, hfields, hscanned,
    exec_of_commit (isMarker_of_frameCode hcode) hdec hroom⟩

theorem readFrame_of_length_lt {code : Byte} {l : Half} {p : List Byte} (h : p.length < 6) :
    readFrame code l p = .error (badLength code l) := by
  unfold readFrame
  split
  next => simp at h; omega
  next => rfl

section Fields
variable (code pr : Byte) {nf : Byte} (l : Half) {y x : Half} (rest : List Byte)

/-- The image size is tested before the length equation (R162). -/
theorem readFrame_of_empty (h : y = 0 ∨ x = 0 ∨ nf = 0) :
    readFrame code l (pr :: (halfBytes y ++ (halfBytes x ++ nf :: rest))) = .error (fatalError .emptyImage y x) := by
  simp only [halfBytes, List.cons_append, List.nil_append, readFrame, be16_halfBytes, if_pos h]

theorem readFrame_of_wrong_length (h : ¬(y = 0 ∨ x = 0 ∨ nf = 0)) (hl : l.toNat ≠ 3 * nf.toNat + 8) :
    readFrame code l (pr :: (halfBytes y ++ (halfBytes x ++ nf :: rest))) = .error (badLength code l) := by
  simp only [halfBytes, List.cons_append, List.nil_append, readFrame, be16_halfBytes, if_neg h, if_pos hl]

end Fields

theorem decodeFrameHeader_of_seen (code : Byte) {s : State} (seen : s.sawFrameHeader = true) :
    decodeFrameHeader code s = .fatal (fatalError .duplicateFrameHeader (widen code) 0) := if_pos seen

/-- The first frame header of a stream is a buffered kind (R160, R162). -/
theorem decodeFrameHeader_of_fresh (code : Byte) {s : State} (fresh : s.sawFrameHeader = false) :
    decodeFrameHeader code s = s.buffered code lengthAtLeastTwo fun l p =>
      .ofRead (readFrame code l p) fun o => .commit ((s.writeFrame code o).advance l.toNat) :=
  if_neg (by simp [fresh])

theorem decodeFrameHeader_of_error {code : Byte} {s : State} {p : List Byte} {f : FatalError}
    (fresh : s.sawFrameHeader = false) (h : s.Segment p)
    (hread : readFrame code (BitVec.ofNat 16 (p.length + 2)) p = .error f) : decodeFrameHeader code s = .fatal f := by
  rw [decodeFrameHeader_of_fresh code fresh, State.buffered_segment h _ _ _ h.length_ok, hread, Decoded.ofRead_error]

/-- Settles O21, test by test. -/
theorem frameHeaderRefused : Obligations.FrameHeaderRefused := by
  intro ic hic s
  have hcode : frameCode ic.1 = some ic.2 := by fin_cases hic <;> rfl
  have hi := isMarker_of_frameCode hcode
  have hdec := decoderOf_of_frameCode hcode s
  refine ⟨fun seen => ?_, fun fresh => ⟨fun l hl h2 => ?_, fun p hp h6 => ?_,
    fun pr nf y x rest hp => ⟨fun h0 => ?_, fun hy hx hnf hlen => ?_⟩⟩⟩
  · exact exec_of_fatalError hi (hdec.trans (decodeFrameHeader_of_seen ic.2 seen))
  · refine exec_of_badLength hi (hdec.trans ?_)
    rw [decodeFrameHeader_of_fresh ic.2 fresh, State.buffered_of_length_lt hl h2]
  · exact exec_of_badLength hi (hdec.trans (decodeFrameHeader_of_error fresh hp (readFrame_of_length_lt h6)))
  · exact exec_of_fatalError hi (hdec.trans (decodeFrameHeader_of_error fresh hp (readFrame_of_empty _ _ _ _ h0)))
  · have hnonempty : ¬(y = 0 ∨ x = 0 ∨ nf = 0) := not_or.2 ⟨hy, not_or.2 ⟨hx, hnf⟩⟩
    have hp8 : (pr :: (halfBytes y ++ (halfBytes x ++ nf :: rest))).length + 2 = rest.length + 8 := by
      simp only [List.length_cons, List.length_append, halfBytes_length]; omega
    have hl := hp.read.2.1
    rw [← hp8]
    exact exec_of_badLength hi (hdec.trans (decodeFrameHeader_of_error fresh hp
      (readFrame_of_wrong_length _ _ _ _ hnonempty (by omega))))

/-! ### Scan headers -/

/-- The scan counter counts until it is saturated (R11, R31). -/
theorem sat32Add_one (x : Count) : sat32Add x 1 = if x = 0xFFFFFFFF then x else x + 1 := by
  unfold sat32Add
  split <;> bv_omega

/-- Settles O22: `assignTables` writes the tables component by component, so the last one that names a frame component
stands. -/
theorem scanHeaderAccepted : Obligations.ScanHeaderAccepted := by
  intro o js s hw seen hseg hroom hnamed
  have hdec := decodeScanHeader_encode hw seen hseg (resolveSelectors_ok _ _ js hnamed)
  rw [encodeScan_length] at hdec
  refine ⟨assignTables s.frame.components (js.zip o.components), assignTables_length _ _, assignTables_get _ _, ?_⟩
  have hdone := Decoded.commit_advance_of_room (s := s.writeScan o js) .scanStart hroom
  rw [exec_eq_complete rfl, decoderOf, hdec.trans hdone, State.complete_done, ← sat32Add_one]
  rfl

theorem readScan_of_count {l : Half} {ns : Byte} {rest : List Byte}
    (h : ns.toNat < 1 ∨ 4 < ns.toNat ∨ l.toNat ≠ 2 * ns.toNat + 6) :
    readScan l (ns :: rest) = .error (badLength 0xDA l) := if_pos h

theorem decodeScanHeader_of_fresh {s : State} (fresh : s.sawFrameHeader = false) :
    decodeScanHeader s = .fatal (fatalError .scanBeforeFrame 0 0) := if_neg (by simp [fresh])

/-- Behind a frame header the scan header is a buffered kind (R160, R177). -/
theorem decodeScanHeader_of_seen {s : State} (seen : s.sawFrameHeader = true) :
    decodeScanHeader s = s.buffered 0xDA lengthAtLeastTwo fun l p =>
      .ofRead (readScan l p) fun o => .ofRead (resolveSelectors s.frame.components o.components) fun indices =>
        .commit ((s.writeScan o indices).advance l.toNat) .scanStart := if_pos seen

theorem decodeScanHeader_of_error {s : State} {p : List Byte} {f : FatalError} (seen : s.sawFrameHeader = true)
    (h : s.Segment p) (hread : readScan (BitVec.ofNat 16 (p.length + 2)) p = .error f) :
    decodeScanHeader s = .fatal f := by
  rw [decodeScanHeader_of_seen seen, State.buffered_segment h _ _ _ h.length_ok, hread, Decoded.ofRead_error]

theorem decodeScanHeader_of_unresolved {s : State} {o : ScanOperands} {f : FatalError} (hw : o.wf)
    (seen : s.sawFrameHeader = true) (h : s.Segment (encodeScan o))
    (hres : resolveSelectors s.frame.components o.components = .error f) : decodeScanHeader s = .fatal f := by
  rw [decodeScanHeader_of_seen seen, State.buffered_segment h _ _ _ h.length_ok, readScan_encode hw, Decoded.ofRead_ok,
    hres, Decoded.ofRead_error]

/-- Settles O23, test by test. -/
theorem scanHeaderRefused : Obligations.ScanHeaderRefused := by
  intro s
  refine ⟨fun fresh => ?_, fun seen => ⟨fun l hl h2 => ?_, fun hp => ?_, fun ns rest hp hcount => ?_,
    fun o pre post bad hw hp hsplit hpre hbad => ?_⟩⟩
  · exact exec_of_fatalError (i := .sos) rfl (decodeScanHeader_of_fresh fresh)
  · refine exec_of_badLength (i := .sos) (code := 0xDA) rfl ?_
    rw [decoderOf, decodeScanHeader_of_seen seen, State.buffered_of_length_lt hl h2]
  · exact exec_of_badLength (i := .sos) (code := 0xDA) rfl (decodeScanHeader_of_error seen hp rfl)
  · have hlen : (BitVec.ofNat 16 ((ns :: rest).length + 2)).toNat = rest.length + 3 := hp.read.2.1
    exact exec_of_badLength (i := .sos) (code := 0xDA) rfl
      (decodeScanHeader_of_error seen hp (readScan_of_count (by omega)))
  · refine exec_of_fatalError (i := .sos) (c := .unknownComponent) rfl
      (decodeScanHeader_of_unresolved hw seen hp ?_)
    rw [hsplit]
    exact resolveSelectors_error _ _ _ _ hpre hbad

/-! ### Waiting -/

/-- The decoder outcome `d` waits for nothing, and when it is done `pos` stands `n` bytes further on than in `s`. -/
def Decoded.Consumes (s : State) (n : Nat) : Decoded → Prop
  | .done u _ => s.pos.toNat + n < 2 ^ 64 ∧ u.pos = BitVec.ofNat 64 (s.pos.toNat + n)
  | .suspend => False
  | .fatal _ | .overflow => True

theorem Decoded.Consumes.commit {s v : State} (n : Nat) (g : Signal) (hv : v.pos = s.pos) :
    Decoded.Consumes s n (.commit (v.advance n) g) := by
  rw [Decoded.commit_advance, hv]
  split
  next hroom => exact ⟨hroom, rfl⟩
  next => trivial

theorem Decoded.Consumes.ofRead {α : Type} {s : State} {n : Nat} {r : Except FatalError α} {k : α → Decoded}
    (h : ∀ a, Decoded.Consumes s n (k a)) : Decoded.Consumes s n (.ofRead r k) := by
  cases r with
  | error f => trivial
  | ok a => exact h a

/-- What consumes a byte does not look like a suspension to the host: it has moved `pos` or raised a fatal error. -/
theorem Decoded.Consumes.complete_ne_suspended {s : State} {n : Nat} {d : Decoded} (h : Decoded.Consumes s n d)
    (hn : 0 < n) : s.complete d ≠ .next s.suspended := by
  intro heq
  cases d with
  | done u g =>
    obtain ⟨hroom, hpos⟩ := h
    rw [State.complete_done] at heq
    have hstate : Decoded.after u g = s.suspended := Host.Outcome.next.inj heq
    have hsame : (Decoded.after u g).pos = s.pos := by rw [hstate]
    have hafter : (Decoded.after u g).pos = u.pos := by cases g <;> rfl
    have hnat := congrArg BitVec.toNat (hpos.symm.trans (hafter.symm.trans hsame))
    rw [toNat_ofNat_pos hroom] at hnat
    omega
  | suspend => exact h
  | fatal f => cases congrArg State.result (Host.Outcome.next.inj heq)
  | overflow => cases heq

/-- A buffered kind suspends exactly while its length field or its declared segment is not there (R160, R356). -/
theorem State.buffered_suspends_iff {s : State} {code : Byte} {k : Half → List Byte → Decoded}
    (hk : ∀ l p, Decoded.Consumes s l.toNat (k l p)) :
    s.complete (s.buffered code lengthAtLeastTwo k) = .next s.suspended ↔
      s.source.avail < s.pos.toNat + 2 ∨
        ∃ l : Half, s.source.half s.pos.toNat = some l ∧ 2 ≤ l.toNat ∧ s.source.avail < s.pos.toNat + l.toNat := by
  rcases s.buffered_cases code lengthAtLeastTwo k with ⟨hav, hb⟩ | ⟨l, hl, hcases⟩
  · rw [hb]
    exact iff_of_true rfl (.inl hav)
  have hthere : ¬s.source.avail < s.pos.toNat + 2 := by
    have := (ByteSource.half_eq_some.1 hl).1
    omega
  rw [or_iff_right hthere]
  simp only [hl, Option.some.injEq, exists_eq_left', ← lengthAtLeastTwo_iff]
  rcases hcases with ⟨hok, hb⟩ | ⟨hok, hav, hb⟩ | ⟨hok, hav, hb⟩ <;> rw [hb]
  · exact iff_of_false (Decoded.Consumes.complete_ne_suspended (n := 1) trivial one_pos) (by simp [hok])
  · exact iff_of_true rfl ⟨hok, hav⟩
  · have h2 := (lengthAtLeastTwo_iff l).1 hok
    exact iff_of_false ((hk _ _).complete_ne_suspended (by omega)) (by omega)

/-- Settles O35: each kind, past its test of the seen flag, is the buffered discipline around a decoder that consumes
its segment. -/
theorem bufferedKindsSuspend : Obligations.BufferedKindsSuspend := by
  intro i s hi
  rcases hi with ⟨hi, fresh⟩ | ⟨rfl, seen⟩ | hi
  · obtain ⟨code, hcode⟩ : ∃ code, frameCode i = some code := by fin_cases hi <;> exact ⟨_, rfl⟩
    rw [exec_eq_complete (isMarker_of_frameCode hcode), decoderOf_of_frameCode hcode,
      decodeFrameHeader_of_fresh code fresh]
    exact State.buffered_suspends_iff fun l _ => .ofRead fun _ => .commit l.toNat _ rfl
  · rw [exec_eq_complete rfl, decoderOf, decodeScanHeader_of_seen seen]
    exact State.buffered_suspends_iff fun l _ => .ofRead fun _ => .ofRead fun _ => .commit l.toNat _ rfl
  · fin_cases hi <;> exact State.buffered_suspends_iff fun l _ => .ofRead fun _ => .commit l.toNat _ rfl

end Sys2Proof.Machine

/-! SUPPORT. The readers of the table segments, definition by definition: what stands behind accepted definitions is read as if
it stood alone, and each test of the next definition raises its fatal error (`42_table_segments.md` R190 to R192). -/

namespace Sys2Proof.Machine

/-! ### A list of definitions -/

/-- A reader that takes one definition off the front, its result independent of the bound `n` once that covers the bytes,
takes every list of definitions off the front. -/
theorem read_append_encode {α : Type} {wf : α → Prop} {encode : α → List Byte}
    {read : Nat → List Byte → Except FatalError (List α)}
    (bound : ∀ (p : List Byte) (n m : Nat), p.length ≤ n → p.length ≤ m → read n p = read m p)
    (nonempty : ∀ d, 1 ≤ (encode d).length)
    (cons : ∀ d, wf d → ∀ n tail, read (n + 1) (encode d ++ tail) = (read n tail).map (d :: ·))
    {defs : List α} (hw : ∀ d ∈ defs, wf d) {n : Nat} {tail : List Byte}
    (hn : (defs.flatMap encode ++ tail).length ≤ n) :
    read n (defs.flatMap encode ++ tail) = (read tail.length tail).map (defs ++ ·) := by
  induction defs generalizing n with
  | nil =>
    rw [List.flatMap_nil, List.nil_append, bound tail n tail.length hn le_rfl]
    cases read tail.length tail <;> rfl
  | cons d ds ih =>
    obtain ⟨hd, hds⟩ := List.forall_mem_cons.1 hw
    rw [List.flatMap_cons, List.append_assoc] at hn ⊢
    rw [List.length_append] at hn
    have hd1 := nonempty d
    obtain ⟨n, rfl⟩ : ∃ m, n = m + 1 := ⟨n - 1, by omega⟩
    rw [cons d hd, ih hds (by omega)]
    cases read tail.length tail <;> rfl

/-! ### Quantisation tables -/

section Quant
variable {l : Half}

/-- A reader of a quantisation segment takes one definition off the front. -/
theorem readQuantDefs_cons_encode {d : QuantDef} (hw : d.wf) (n : Nat) (tail : List Byte) :
    readQuantDefs l (n + 1) (encodeQuantDef d ++ tail) = (readQuantDefs l n tail).map (d :: ·) := by
  obtain ⟨hlen, hbyte⟩ := hw
  have hbytes : (d.coeffs.flatMap (encodeCoefficient d.precision)).length = coefficientBytes d.precision := by
    rw [encodeCoefficients_length, hlen, coefficientBytes]; split <;> rfl
  have ht : (BitVec.ofNat 4 d.table.val).toNat = d.table.val := by simp only [BitVec.toNat_ofNat]; omega
  simp only [encodeQuantDef, List.cons_append, readQuantDefs, lowNibble_pack, highNibble_pack, ht, d.table.isLt,
    dite_true, ← hbytes, List.drop_left, List.take_left, List.length_append, coefficients_encode _ _ hbyte]
  rw [if_neg (by omega)]
  cases readQuantDefs l n tail <;> rfl

theorem readQuantDefs_append_encode {defs : List QuantDef} (hw : ∀ d ∈ defs, d.wf) (tail : List Byte) :
    readQuantDefs l (defs.flatMap encodeQuantDef ++ tail).length (defs.flatMap encodeQuantDef ++ tail) =
      (readQuantDefs l tail.length tail).map (defs ++ ·) :=
  read_append_encode (readQuantDefs_fuel l) (fun d => by simp [encodeQuantDef])
    (fun _ hd => readQuantDefs_cons_encode hd) hw le_rfl

theorem readQuantDefs_of_bad_table (n : Nat) (pq : Nibble) {tq : Nibble} (rest : List Byte) (h : 4 ≤ tq.toNat) :
    readQuantDefs l (n + 1) (packNibbles pq tq :: rest) = .error (badTableIndex 0xDB (tq.setWidth 16)) := by
  rw [readQuantDefs, lowNibble_pack, dif_neg (by omega)]

theorem readQuantDefs_of_short (n : Nat) {pq tq : Nibble} {rest : List Byte} (ht : tq.toNat < 4)
    (hshort : rest.length < coefficientBytes pq) :
    readQuantDefs l (n + 1) (packNibbles pq tq :: rest) = .error (badLength 0xDB l) := by
  rw [readQuantDefs, lowNibble_pack, highNibble_pack, dif_pos ht, if_pos hshort]

end Quant

/-! ### Huffman tables -/

section Huff
variable {l : Half}

/-- A reader of a Huffman segment takes one definition off the front. -/
theorem readHuffDefs_cons_encode {d : HuffDef} (hw : d.wf) (n : Nat) (tail : List Byte) :
    readHuffDefs l (n + 1) (encodeHuffDef d ++ tail) = (readHuffDefs l n tail).map (d :: ·) := by
  obtain ⟨hlen, hmax⟩ := hw
  have hc : (BitVec.ofNat 4 d.bank.val).toNat = d.bank.val := by simp only [BitVec.toNat_ofNat]; omega
  have ht : (BitVec.ofNat 4 d.table.val).toNat = d.table.val := by simp only [BitVec.toNat_ofNat]; omega
  have h16 : d.counts.toList.length = 16 := Vector.length_toList
  have hcount : countSymbols d.counts.toList = d.values.length := hlen.symm
  have htake : (d.counts.toList ++ (d.values ++ tail)).take 16 = d.counts.toList := List.take_left' h16
  have hdrop : (d.counts.toList ++ (d.values ++ tail)).drop 16 = d.values ++ tail := List.drop_left' h16
  simp only [encodeHuffDef, List.cons_append, List.append_assoc, readHuffDefs, lowNibble_pack, highNibble_pack, hc, ht,
    htake, hcount, ← List.drop_drop, hdrop, List.drop_left, List.take_left, d.bank.isLt, d.table.isLt, and_self,
    dite_true, List.length_append, h16]
  rw [dif_pos (by omega), if_neg (by simp only [huffMaxSymbols]; omega)]
  cases readHuffDefs l n tail <;> rfl

theorem readHuffDefs_append_encode {defs : List HuffDef} (hw : ∀ d ∈ defs, d.wf) (tail : List Byte) :
    readHuffDefs l (defs.flatMap encodeHuffDef ++ tail).length (defs.flatMap encodeHuffDef ++ tail) =
      (readHuffDefs l tail.length tail).map (defs ++ ·) :=
  read_append_encode (readHuffDefs_fuel l) (fun d => by simp [encodeHuffDef])
    (fun _ hd => readHuffDefs_cons_encode hd) hw le_rfl

theorem readHuffDefs_of_short (n : Nat) (b : Byte) {rest : List Byte} (h : rest.length < 16) :
    readHuffDefs l (n + 1) (b :: rest) = .error (badLength 0xC4 l) := by
  rw [readHuffDefs, dif_neg (by omega)]

variable (n : Nat) {b : Byte} {counts values : List Byte} (h16 : counts.length = 16)
include h16

theorem readHuffDefs_of_bad_count (h : 256 < symbolCount counts ∨ values.length < symbolCount counts) :
    readHuffDefs l (n + 1) (b :: (counts ++ values)) =
      .error (fatalError .badHuffTable (BitVec.ofNat 16 (symbolCount counts)) (BitVec.ofNat 16 values.length)) := by
  have hroom : (counts ++ values).length - 16 = values.length := by rw [List.length_append]; omega
  have hcounts : 16 ≤ (counts ++ values).length := by rw [List.length_append]; omega
  simp only [readHuffDefs, dif_pos hcounts, List.take_left' h16, hroom]
  exact if_pos h

/-- The class and the table are tested behind the counts (R191). -/
theorem readHuffDefs_of_bad_table (hmax : symbolCount counts ≤ 256) (hthere : symbolCount counts ≤ values.length)
    (h : 2 ≤ (highNibble b).toNat ∨ 4 ≤ (lowNibble b).toNat) :
    readHuffDefs l (n + 1) (b :: (counts ++ values)) = .error (badTableIndex 0xC4 (widen b)) := by
  have hroom : (counts ++ values).length - 16 = values.length := by rw [List.length_append]; omega
  have hcounts : 16 ≤ (counts ++ values).length := by rw [List.length_append]; omega
  simp only [readHuffDefs, dif_pos hcounts, List.take_left' h16, hroom]
  exact (if_neg (not_or.2 ⟨hmax.not_gt, hthere.not_gt⟩)).trans (dif_neg (by omega))

end Huff

/-! ### Arithmetic conditioning -/

section Arith
variable {l : Half}

/-- A reader of an arithmetic-conditioning segment takes one entry off the front. -/
theorem readDacEntries_cons_encode {e : DacEntry} (hw : e.wf) (tail : List Byte) :
    readDacEntries l (encodeDacEntry e ++ tail) = (readDacEntries l tail).map (e :: ·) := by
  have hi : (BitVec.ofNat 8 e.index.val).toNat = e.index.val := by simp only [BitVec.toNat_ofNat]; omega
  have hord : ¬(e.index.val < 16 ∧ (highNibble e.value).toNat < (lowNibble e.value).toNat) := fun ⟨h16, hlt⟩ => by
    have := hw h16
    rw [highNibble_toNat, lowNibble_toNat] at hlt
    omega
  simp only [encodeDacEntry, List.cons_append, List.nil_append, readDacEntries, hi, e.index.isLt, dite_true, hord,
    if_false]
  cases readDacEntries l tail <;> rfl

theorem readDacEntries_append_encode {es : List DacEntry} (hw : ∀ e ∈ es, e.wf) (tail : List Byte) :
    readDacEntries l (es.flatMap encodeDacEntry ++ tail) = (readDacEntries l tail).map (es ++ ·) :=
  read_append_encode (read := fun _ => readDacEntries l) (fun _ _ _ _ _ => rfl) (fun d => by simp [encodeDacEntry])
    (fun _ he _ => readDacEntries_cons_encode he) hw le_rfl

theorem readDacEntries_of_bad_index {index : Byte} (value : Byte) (rest : List Byte) (h : 32 ≤ index.toNat) :
    readDacEntries l (index :: value :: rest) = .error (badTableIndex 0xCC (widen index)) := by
  rw [readDacEntries, dif_neg (by omega)]

theorem readDacEntries_of_crossed_bounds {index : Byte} {high low : Nibble} (rest : List Byte) (hi : index.toNat < 16)
    (h : high.toNat < low.toNat) :
    readDacEntries l (index :: packNibbles high low :: rest) =
      .error (fatalError .badArithBounds (widen index) (widen (packNibbles high low))) := by
  rw [readDacEntries, dif_pos (by omega), highNibble_pack, lowNibble_pack, if_pos ⟨hi, h⟩]

end Arith

end Sys2Proof.Machine

/-! PROOF. The table segments: what a Huffman segment defines, what each table segment is refused for, and the
restart-interval segment (`42_table_segments.md` R190 to R193, `60_exceptions.md` R346 to R353). -/

namespace Sys2Proof.Machine

/-- Every buffered kind but the restart interval refuses a length below 2 (R160 (c)). -/
theorem exec_of_length_lt {i : Instr} {s : State} {code : Byte} {l : Half} {k : Half → List Byte → Decoded}
    (hi : isMarker i = true) (hdec : decoderOf i s = s.buffered code lengthAtLeastTwo k)
    (hl : s.source.half s.pos.toNat = some l) (h2 : l.toNat < 2) :
    exec i s = .next (s.failed 5 (code.setWidth 16) l) :=
  exec_of_badLength hi (hdec.trans (State.buffered_of_length_lt hl h2 code k))

/-! ### Quantisation tables -/

/-- A fatal error behind accepted quantisation definitions is the segment's: none of them is applied. -/
theorem decodeDqt_of_error {s : State} {defs : List QuantDef} {tail : List Byte} {f : FatalError}
    (hw : ∀ d ∈ defs, d.wf) (h : s.Segment (defs.flatMap encodeQuantDef ++ tail))
    (hread : readQuantDefs (BitVec.ofNat 16 ((defs.flatMap encodeQuantDef ++ tail).length + 2)) tail.length tail =
      .error f) :
    decodeDqt s = .fatal f := by
  rw [decodeDqt, State.buffered_segment h _ _ _ h.length_ok, readQuantDefs_append_encode hw, hread]
  rfl

/-- Settles O25, test by test. -/
theorem quantSegmentRefused : Obligations.QuantSegmentRefused := by
  intro s
  refine ⟨fun l hl h2 => ?_, fun defs pq tq rest hw hp => ⟨fun ht => ?_, fun ht hshort => ?_⟩⟩
  · exact exec_of_length_lt (i := .dqt) (code := 0xDB) rfl (by rw [decoderOf, decodeDqt]) hl h2
  · exact exec_of_fatalError (i := .dqt) (c := .badTableIndex) rfl
      (decodeDqt_of_error hw hp (readQuantDefs_of_bad_table _ _ _ ht))
  · have hlen : (defs.flatMap encodeQuantDef ++ packNibbles pq tq :: rest).length + 2 =
        (defs.flatMap encodeQuantDef).length + rest.length + 3 := by
      rw [List.length_append, List.length_cons]; omega
    rw [← hlen]
    exact exec_of_badLength (i := .dqt) (code := 0xDB) rfl
      (decodeDqt_of_error hw hp (readQuantDefs_of_short _ ht hshort))

/-! ### Huffman tables -/

/-- Settles O26: the definitions are applied one after the other, so the last one of a table stands. -/
theorem huffTablesDefined : Obligations.HuffTablesDefined := by
  intro defs s hw hseg hroom
  exact ⟨defs.foldl defineHuff s.huff, defineHuff_foldl defs s.huff,
    exec_of_commit (i := .dht) rfl (decodeDht_encode hw hseg) hroom⟩

/-- A fatal error behind accepted Huffman definitions is the segment's: none of them is applied. -/
theorem decodeDht_of_error {s : State} {defs : List HuffDef} {tail : List Byte} {f : FatalError}
    (hw : ∀ d ∈ defs, d.wf) (h : s.Segment (defs.flatMap encodeHuffDef ++ tail))
    (hread : readHuffDefs (BitVec.ofNat 16 ((defs.flatMap encodeHuffDef ++ tail).length + 2)) tail.length tail =
      .error f) :
    decodeDht s = .fatal f := by
  rw [decodeDht, State.buffered_segment h _ _ _ h.length_ok, readHuffDefs_append_encode hw, hread]
  rfl

/-- Settles O27, test by test. -/
theorem huffSegmentRefused : Obligations.HuffSegmentRefused := by
  intro s
  refine ⟨fun l hl h2 => ?_, fun defs b rest hw hp => ⟨fun hshort => ?_, ?_⟩⟩
  · exact exec_of_length_lt (i := .dht) (code := 0xC4) rfl (by rw [decoderOf, decodeDht]) hl h2
  · have hlen : (defs.flatMap encodeHuffDef ++ b :: rest).length + 2 =
        (defs.flatMap encodeHuffDef).length + rest.length + 3 := by
      rw [List.length_append, List.length_cons]; omega
    rw [← hlen]
    exact exec_of_badLength (i := .dht) (code := 0xC4) rfl
      (decodeDht_of_error hw hp (readHuffDefs_of_short _ _ hshort))
  · rintro counts values rfl h16
    refine ⟨fun hcount => ?_, fun hmax hthere hindex => ?_⟩
    · exact exec_of_fatalError (i := .dht) (c := .badHuffTable) rfl
        (decodeDht_of_error hw hp (readHuffDefs_of_bad_count _ h16 hcount))
    · exact exec_of_fatalError (i := .dht) (c := .badTableIndex) rfl
        (decodeDht_of_error hw hp (readHuffDefs_of_bad_table _ h16 hmax hthere hindex))

/-! ### Arithmetic conditioning -/

/-- A fatal error behind accepted arithmetic-conditioning entries is the segment's: none of them is applied. -/
theorem decodeDac_of_error {s : State} {es : List DacEntry} {tail : List Byte} {f : FatalError}
    (hw : ∀ e ∈ es, e.wf) (h : s.Segment (es.flatMap encodeDacEntry ++ tail))
    (hread : readDacEntries (BitVec.ofNat 16 ((es.flatMap encodeDacEntry ++ tail).length + 2)) tail = .error f) :
    decodeDac s = .fatal f := by
  rw [decodeDac, State.buffered_segment h _ _ _ h.length_ok, readDacEntries_append_encode hw, hread]
  rfl

/-- Settles O29, test by test. -/
theorem arithSegmentRefused : Obligations.ArithSegmentRefused := by
  intro s
  refine ⟨fun l hl h2 => ?_, fun es index hw => ⟨fun hp => ?_, fun high low rest hp =>
    ⟨fun hindex => ?_, fun hindex hcrossed => ?_⟩⟩⟩
  · exact exec_of_length_lt (i := .dac) (code := 0xCC) rfl (by rw [decoderOf, decodeDac]) hl h2
  · have hlen : (es.flatMap encodeDacEntry ++ [index]).length + 2 = 2 * es.length + 3 := by
      rw [List.length_append, encodeDacEntries_length, List.length_singleton]
    rw [← hlen]
    exact exec_of_badLength (i := .dac) (code := 0xCC) rfl (decodeDac_of_error hw hp rfl)
  · exact exec_of_fatalError (i := .dac) (c := .badTableIndex) rfl
      (decodeDac_of_error hw hp (readDacEntries_of_bad_index _ _ hindex))
  · exact exec_of_fatalError (i := .dac) (c := .badArithBounds) rfl
      (decodeDac_of_error hw hp (readDacEntries_of_crossed_bounds _ hindex hcrossed))

/-! ### Restart interval -/

/-- A marker whose decoder waits (R356). -/
theorem exec_of_suspend {i : Instr} {s : State} (hi : isMarker i = true) (h : decoderOf i s = .suspend) :
    exec i s = .next s.suspended := by
  rw [exec_eq_complete hi, h]; rfl

theorem decodeDri_of_no_length {s : State} (h : s.source.avail < s.pos.toNat + 2) : decodeDri s = .suspend := by
  simp only [decodeDri, State.buffered, ByteSource.half_eq_none.2 h]

section Length
variable {s : State} {l : Half} (hl : s.source.half s.pos.toNat = some l)
include hl

/-- Only the length 4 passes, and it is tested before the value is there (R193). -/
theorem decodeDri_of_bad_length (h : l ≠ 4) : decodeDri s = .fatal (badLength 0xDD l) := by
  have hno : ¬lengthIsFour l = true := by rw [lengthIsFour_iff]; bv_omega
  simp only [decodeDri, State.buffered, hl]
  exact if_neg hno

theorem decodeDri_of_no_value (h : l = 4) (hav : s.source.avail < s.pos.toNat + 4) : decodeDri s = .suspend := by
  have hno : ¬s.source.has s.pos.toNat 4 = true := by simp only [ByteSource.has, decide_eq_true_eq]; omega
  subst h
  simp only [decodeDri, State.buffered, hl]
  exact (if_pos rfl).trans (if_neg hno)

end Length

/-- Settles O30. -/
theorem restartIntervalSegment : Obligations.RestartIntervalSegment := by
  intro s
  refine ⟨fun hav => ?_, fun l hl => ⟨fun hne => ?_, fun h4 hav => ?_⟩, fun ri hp hroom => ?_⟩
  · exact exec_of_suspend (i := .dri) rfl (decodeDri_of_no_length hav)
  · exact exec_of_badLength (i := .dri) (code := 0xDD) rfl (decodeDri_of_bad_length hl hne)
  · exact exec_of_suspend (i := .dri) rfl (decodeDri_of_no_value hl h4 hav)
  · exact exec_of_commit (i := .dri) rfl (decodeDri_halfBytes hp) hroom

end Sys2Proof.Machine

/-! PROOF. The segments that are skipped or recognised and the markers without a decoder
(`43_app_skip_and_other_markers.md` R220 to R267, `41_frame_and_scan_headers.md` R168 to R176). -/

namespace Sys2Proof.Machine

/-! ### Informational, unsupported and unknown markers -/

/-- Settles O16: the decoder of an informational marker is done with the state it was given. -/
theorem informationalMarkers : Obligations.InformationalMarkers := by
  intro i hi s
  obtain ⟨hmarker, hdec⟩ : isMarker i = true ∧ decoderOf i s = .done s .proceed := by
    fin_cases hi <;> exact ⟨rfl, rfl⟩
  rw [exec_eq_complete hmarker, hdec, State.complete_done]
  rfl

/-- Every unsupported frame code raises cause 9 with the code (R168, R350). -/
theorem exec_of_unsupportedFrame {i : Instr} {s : State} {code : Byte} (hi : isMarker i = true)
    (h : decoderOf i s = unsupportedFrame code) : exec i s = .next (s.failed 9 (code.setWidth 16) 0) :=
  exec_of_fatalError (c := .unsupportedFrameVariant) hi h

/-- Every code without a decoder raises cause 10 with the code (R250, R351). -/
theorem exec_of_unknownMarker {i : Instr} {s : State} {code : Byte} (hi : isMarker i = true)
    (h : decoderOf i s = unknownMarker code) : exec i s = .next (s.failed 10 (code.setWidth 16) 0) :=
  exec_of_fatalError (c := .unknownMarker) hi h

/-- Settles O18, group by group. -/
theorem unsupportedAndUnknownCodes : Obligations.UnsupportedAndUnknownCodes := by
  refine ⟨fun ic hic s => ?_, fun code s => exec_of_unknownMarker (i := .res code) rfl rfl, fun ic hic s => ?_⟩
  · fin_cases hic <;> exact exec_of_unsupportedFrame rfl rfl
  · fin_cases hic <;> exact exec_of_unknownMarker rfl rfl

/-! ### Skip kinds -/

theorem skipVariable_of_no_length {s : State} (h : s.source.avail < s.pos.toNat + 2) : skipVariable s = .suspend := by
  simp only [skipVariable, ByteSource.half_eq_none.2 h]

theorem skipVariable_of_length {s : State} {l : Half} (hl : s.source.half s.pos.toNat = some l) :
    skipVariable s = .commit (s.advance (consumed l)) := by
  simp only [skipVariable, hl]

/-- Settles O31: each of these instructions runs the Skip decoder (R223, R224). -/
theorem skippedSegments : Obligations.SkippedSegments := by
  intro i s hi
  obtain ⟨hmarker, hdec⟩ : isMarker i = true ∧ decoderOf i s = skipVariable s := by
    rcases hi with hi | ⟨rfl, hoff⟩ | ⟨rfl, hoff⟩
    · fin_cases hi <;> exact ⟨rfl, rfl⟩
    · exact ⟨rfl, if_neg (by simp [hoff])⟩
    · exact ⟨rfl, if_neg (by simp [hoff])⟩
  exact ⟨fun hav => exec_of_suspend hmarker (hdec.trans (skipVariable_of_no_length hav)),
    fun l hl hroom => exec_of_commit hmarker (hdec.trans (skipVariable_of_length hl)) hroom⟩

/-! ### Recognising decoders

APP0 and APP14 have one decoder but for the number of bytes examined, the reader and the writes (R221, R222). -/

/-- A recognising decoder: the length field, the wait for the examined bytes, the writes where they read as operands. -/
def State.recognise {α : Type} (s : State) (fixed : Nat) (read : List Byte → Option α) (write : Half → α → State) :
    Decoded :=
  match s.source.half s.pos.toNat with
  | none => .suspend
  | some l =>
    if s.source.has s.pos.toNat (2 + examined l fixed) then
      match read (s.source.take (s.pos.toNat + 2) (examined l fixed)) with
      | some x => .commit ((write l x).advance (consumed l))
      | none => .commit (s.advance (consumed l))
    else .suspend

/-- The writes of a recognised JFIF segment of length `l` with its warnings (R220). -/
def State.recordJfif (s : State) (l : Half) (j : JfifOperands) : State :=
  ((s.warnMajor j).warnThumbnail j (l.toNat - 2 - app0FixedLength)).writeJfif j

theorem decodeApp0_eq_recognise (s : State) : decodeApp0 s = s.recognise app0FixedLength readJfif s.recordJfif := by
  cases hl : s.source.half s.pos.toNat with
  | none => simp only [decodeApp0, State.recognise, hl]
  | some l =>
    simp only [decodeApp0, State.recognise, hl]
    cases readJfif (s.source.take (s.pos.toNat + 2) (examined l app0FixedLength)) <;> rfl

theorem decodeApp14_eq_recognise (s : State) :
    decodeApp14 s = s.recognise app14FixedLength readAdobe fun _ => s.writeAdobe := by
  cases hl : s.source.half s.pos.toNat with
  | none => simp only [decodeApp14, State.recognise, hl]
  | some l =>
    simp only [decodeApp14, State.recognise, hl]
    cases readAdobe (s.source.take (s.pos.toNat + 2) (examined l app14FixedLength)) <;> rfl

theorem decoderOf_app0 {s : State} (hon : s.config.app0 = true) :
    decoderOf .app0 s = s.recognise app0FixedLength readJfif s.recordJfif :=
  (if_pos hon).trans (decodeApp0_eq_recognise s)

theorem decoderOf_app14 {s : State} (hon : s.config.app14 = true) :
    decoderOf .app14 s = s.recognise app14FixedLength readAdobe fun _ => s.writeAdobe :=
  (if_pos hon).trans (decodeApp14_eq_recognise s)

section Recognise
variable {α : Type} {s : State} {fixed : Nat} {read : List Byte → Option α} {write : Half → α → State}

theorem State.recognise_of_no_length (h : s.source.avail < s.pos.toNat + 2) :
    s.recognise fixed read write = .suspend := by
  simp only [State.recognise, ByteSource.half_eq_none.2 h]

variable {l : Half} (hl : s.source.half s.pos.toNat = some l)
include hl

theorem State.recognise_of_no_bytes (h : s.source.avail < s.pos.toNat + 2 + examined l fixed) :
    s.recognise fixed read write = .suspend := by
  have hno : s.source.has s.pos.toNat (2 + examined l fixed) = false := ByteSource.has_of_lt (by omega)
  simp only [State.recognise, hl, hno, Bool.false_eq_true, if_false]

variable (hav : s.pos.toNat + 2 + examined l fixed ≤ s.source.avail)
include hav

theorem State.recognise_of_read {x : α} (h : read (s.source.take (s.pos.toNat + 2) (examined l fixed)) = some x) :
    s.recognise fixed read write = .commit ((write l x).advance (consumed l)) := by
  have hhas : s.source.has s.pos.toNat (2 + examined l fixed) = true := ByteSource.has_of_le (by omega)
  simp only [State.recognise, hl, hhas, if_true, h]

theorem State.recognise_of_not_read (h : read (s.source.take (s.pos.toNat + 2) (examined l fixed)) = none) :
    s.recognise fixed read write = .commit (s.advance (consumed l)) := by
  have hhas : s.source.has s.pos.toNat (2 + examined l fixed) = true := ByteSource.has_of_le (by omega)
  simp only [State.recognise, hl, hhas, if_true, h]

end Recognise

/-! ### A recognised segment -/

theorem consumed_of_two_le {l : Half} (h : 2 ≤ l.toNat) : consumed l = l.toNat := max_eq_left h

theorem examined_of_le {l : Half} {fixed : Nat} (h : fixed + 2 ≤ l.toNat) : examined l fixed = fixed :=
  min_eq_right (by omega)

/-- The examined bytes stand behind a length that covers them: they are read, and `L` bytes are consumed (R221). -/
theorem State.recognise_encode {α : Type} {s : State} {read : List Byte → Option α} {write : Half → α → State} {l : Half}
    {x : α} {p : List Byte} (hread : read p = some x) (hlen : p.length + 2 ≤ l.toNat)
    (hholds : s.source.Holds s.pos.toNat (halfBytes l ++ p)) :
    s.recognise p.length read write = .commit ((write l x).advance l.toNat) := by
  obtain ⟨hlength, hp⟩ := ByteSource.holds_append.1 hholds
  have hall := hholds.le_avail (by simp)
  have hav : s.pos.toNat + 2 + examined l p.length ≤ s.source.avail := by
    rw [List.length_append, halfBytes_length] at hall
    rw [examined_of_le hlen]; omega
  have hexamined : read (s.source.take (s.pos.toNat + 2) (examined l p.length)) = some x := by
    rw [examined_of_le hlen, ← hread]; exact congrArg read hp.take_eq
  rw [State.recognise_of_read (ByteSource.half_of_holds hlength) hav hexamined, consumed_of_two_le (by omega)]

/-- R220 with R354: the log behind both warnings, and the registers. -/
theorem State.recordJfif_eq (s : State) (l : Half) (j : JfifOperands) :
    s.recordJfif l j =
      { s with
          events := s.events ++
            (if j.major = 1 then []
              else [{ kind := .jfifMajorMismatch, a := j.major.setWidth 32, b := j.minor.setWidth 32 }]) ++
            (if j.thumbWidth.toNat * j.thumbHeight.toNat * 3 = l.toNat - 16 then []
              else
                [{ kind := .badThumbnailSize
                   a := BitVec.ofNat 32 (l.toNat - 16)
                   b := BitVec.ofNat 32 (j.thumbWidth.toNat * 256 + j.thumbHeight.toNat) }])
          jfif :=
            { saw := true, major := j.major, minor := j.minor, densityUnit := j.densityUnit, xDensity := j.xDensity
              yDensity := j.yDensity } } := by
  have hrem : l.toNat - 2 - app0FixedLength = l.toNat - 16 := Nat.sub_sub _ _ _
  rw [State.recordJfif, hrem, State.warnThumbnail, State.warnMajor, jfifExpectedMajor]
  split <;> split <;> simp [State.writeJfif, State.emit]

/-- Settles O32. -/
theorem jfifRecognised : Obligations.JfifRecognised := by
  intro l j s hon hlen hholds hroom
  have hdec : decoderOf .app0 s = .commit ((s.recordJfif l j).advance l.toNat) :=
    (decoderOf_app0 hon).trans (State.recognise_encode (readJfif_encode j) hlen hholds)
  rw [State.recordJfif_eq] at hdec
  exact exec_of_commit rfl hdec hroom

/-- Settles O33. -/
theorem adobeRecognised : Obligations.AdobeRecognised := by
  intro l a s hon hlen hholds hroom
  have hdec : decoderOf .app14 s = .commit ((s.writeAdobe a).advance l.toNat) :=
    (decoderOf_app14 hon).trans (State.recognise_encode (readAdobe_encode a) hlen hholds)
  exact exec_of_commit rfl hdec hroom

/-! ### A segment that is not recognised -/

/-- A reader that accepts only `fixed` bytes that begin with a signature. -/
def AcceptsOnly {α : Type} (read : List Byte → Option α) (fixed : Nat) (signature : List Byte) : Prop :=
  ∀ p x, read p = some x → p.length = fixed ∧ signature <+: p

theorem readJfif_acceptsOnly : AcceptsOnly readJfif app0FixedLength jfifSignature := fun p j h => by
  rw [eq_encodeJfif_of_readJfif h]
  exact ⟨rfl, by simp [encodeJfif]⟩

theorem readAdobe_acceptsOnly : AcceptsOnly readAdobe app14FixedLength adobeSignature := fun p a h => by
  rw [eq_encodeAdobe_of_readAdobe h]
  exact ⟨rfl, by simp [encodeAdobe]⟩

section Unmatched
variable {α : Type} {s : State} {fixed : Nat} {signature : List Byte} {read : List Byte → Option α} {l : Half}

/-- The examined bytes of a segment that is too short or lacks the signature are not accepted. -/
theorem AcceptsOnly.read_examined_eq_none (haccepts : AcceptsOnly read fixed signature)
    (hav : s.pos.toNat + 2 + examined l fixed ≤ s.source.avail) (hpos : 0 < fixed)
    (h : l.toNat < fixed + 2 ∨ ¬s.source.Holds (s.pos.toNat + 2) signature) :
    read (s.source.take (s.pos.toNat + 2) (examined l fixed)) = none := by
  rw [Option.eq_none_iff_forall_ne_some]
  intro x hx
  obtain ⟨hlength, rest, hrest⟩ := haccepts _ x hx
  rw [ByteSource.take_length, examined] at hlength
  have hholds := ByteSource.holds_of_take hav
  rw [← hrest] at hholds
  rcases h with hshort | hsignature
  · omega
  · exact hsignature (ByteSource.holds_append.1 hholds).1

/-- What both recognising decoders do with everything they do not record (R220 (a) to (c), R222 (a), (b)). -/
theorem recogniser_waits_and_skips {i : Instr} {write : Half → α → State} (hi : isMarker i = true)
    (hdec : decoderOf i s = s.recognise fixed read write) (haccepts : AcceptsOnly read fixed signature)
    (hpos : 0 < fixed) :
    (s.source.avail < s.pos.toNat + 2 → exec i s = .next s.suspended) ∧
    (∀ l : Half, s.source.half s.pos.toNat = some l →
      (s.source.avail < s.pos.toNat + 2 + examined l fixed → exec i s = .next s.suspended) ∧
      (s.pos.toNat + 2 + examined l fixed ≤ s.source.avail → s.Room (consumed l) →
        (l.toNat < fixed + 2 ∨ ¬s.source.Holds (s.pos.toNat + 2) signature) →
        exec i s = .next { s with pos := BitVec.ofNat 64 (s.pos.toNat + consumed l), pendingMarker := 0 })) := by
  refine ⟨fun hav => ?_, fun l hl => ⟨fun hav => ?_, fun hav hroom h => ?_⟩⟩
  · exact exec_of_suspend hi (hdec.trans (State.recognise_of_no_length hav))
  · exact exec_of_suspend hi (hdec.trans (State.recognise_of_no_bytes hl hav))
  · have hnone := haccepts.read_examined_eq_none hav hpos h
    exact exec_of_commit hi (hdec.trans (State.recognise_of_not_read hl hav hnone)) hroom

end Unmatched

/-- Settles O34. -/
theorem unmatchedExtensionsSkipped : Obligations.UnmatchedExtensionsSkipped := by
  rintro i fixed signature s (⟨rfl, hon, rfl, rfl⟩ | ⟨rfl, hon, rfl, rfl⟩)
  · exact recogniser_waits_and_skips rfl (decoderOf_app0 hon) readJfif_acceptsOnly (by decide)
  · exact recogniser_waits_and_skips rfl (decoderOf_app14 hon) readAdobe_acceptsOnly (by decide)

end Sys2Proof.Machine

/-! PROOF. How the commands return at once or begin, and with what results a running command ends
(`44_marker_reader.md` R281 to R289, `45_restart_resync.md` R329). -/

namespace Sys2Proof.Machine

/-! ### Commands that end at once, and the beginning of READ_MARKERS -/

/-- Settles O10. -/
theorem resetStreamReturns : Obligations.ResetStreamReturns := fun _ ha => execResetStream_next.2 ⟨ha, rfl⟩

/-- To end a command with no command in progress writes the result port only. -/
theorem State.finish_of_idle {s : State} (r : Result) (ha : s.activity = .idle) : s.finish r = { s with result := r } := by
  rw [State.finish, ← ha]

/-- Settles O11. -/
theorem nopReturnsIdle : Obligations.NopReturnsIdle := fun _ ha =>
  execNop_next.2 ⟨ha, (State.finish_of_idle .idle ha).symm⟩

/-- Settles O12. -/
theorem readMarkersBegins : Obligations.ReadMarkersBegins := by
  intro s ha
  refine execReadMarkers_next.2 ⟨ha, ?_⟩
  cases hf : s.latch.fatal with
  | true => exact .inl ⟨rfl, (State.finish_of_idle .fatalError ha).symm⟩
  | false => exact .inr ⟨rfl, rfl⟩

/-- Settles O17: the decoder is done in every state and signals the end of the stream. -/
theorem endOfStreamMarker : Obligations.EndOfStreamMarker := fun s => s.complete_done s .endOfStream

/-! ### The end of READ_MARKERS -/

/-- Only an accepted scan header signals the start of a scan (R177). -/
theorem Effect.of_scanStart {s v : State} {i : Instr} (h : Effect s i v .scanStart) :
    v.rstate = .inScan ∧ v.nextRestartIndex = 0 := by
  cases h with
  | scan => exact ⟨rfl, rfl⟩

/-- Only the end-of-stream marker signals the end of the stream, and its decoder writes nothing (R283). -/
theorem Effect.of_endOfStream {s v : State} {i : Instr} (h : Effect s i v .endOfStream) : v = s := by
  cases h with
  | eoi => rfl

theorem Activity.rewind_eq_idle {a : Activity} : a.rewind = .idle ↔ a = .idle := by cases a <;> simp [Activity.rewind]

theorem Activity.swallow_eq_idle {a : Activity} : a.swallow = .idle ↔ a = .idle := by cases a <;> simp [Activity.swallow]

/-- A marker acquired by a running command leaves it running. -/
theorem Acquired.busy {s u : State} (h : Acquired s u) (ha : s.activity ≠ .idle) : u.activity ≠ .idle := by
  rcases h.phase with rfl | hphase
  · exact ha
  · rw [hphase]
    exact mt Activity.rewind_eq_idle.1 ha

/-- How a turn of READ_MARKERS from `s` ends the command. `u` is the state in which the last turn entered a decoder. -/
inductive ReadEnd (s : State) : State → Prop
  | waits (hp : s.pendingMarker = 0) : ReadEnd s s.suspend
  | wrong (f : FatalError) (hp : s.pendingMarker = 0) (hr : s.rstate = .awaitingStartOfImage)
      (cause : f.cause = .noStartOfImage) : ReadEnd s (s.raiseFatal f)
  | decoderWaits {u : State} (acquired : Acquired s u) (fetched : fetch s = .instr (decodeCode u.pendingMarker) u) :
      ReadEnd s u.suspend
  | decoderFails {u : State} (f : FatalError) (acquired : Acquired s u)
      (fetched : fetch s = .instr (decodeCode u.pendingMarker) u) : ReadEnd s (u.raiseFatal f)
  | scanStart {u v : State} {i : Instr} (acquired : Acquired s u) (effect : Effect u i v .scanStart) :
      ReadEnd s (Decoded.after v .scanStart)
  | endOfStream {u : State} (acquired : Acquired s u) : ReadEnd s (Decoded.after u .endOfStream)

/-- READ_MARKERS ends in a step only in these ways (R284, R287). -/
theorem step_reading_end {s t : State} {run : Nat} (ha : s.activity = .reading run) (h : step s = .next t)
    (hidle : t.activity = .idle) : ReadEnd s t := by
  cases step_reading_next ha h with
  | suspended hp => exact .waits hp
  | wrong f hp hr cause => exact .wrong f hp hr cause
  | garbage => cases hidle
  | fill => cases hidle
  | stuff => cases hidle
  | @marker u _ acquired _ hexec fetched =>
    have hmarker := decodeCode_isMarker acquired.some acquired.legal
    rcases exec_marker_next hmarker hexec with ⟨v, g, he, rfl⟩ | rfl | ⟨f, rfl⟩
    · cases g with
      | proceed => exact absurd (he.activity.symm.trans hidle) (acquired.busy (by rw [ha]; exact nofun))
      | scanStart => exact .scanStart acquired he
      | endOfStream =>
        obtain rfl := he.of_endOfStream
        exact .endOfStream acquired
    · exact .decoderWaits acquired fetched
    · exact .decoderFails f acquired fetched

/-! ### The end of READ_RESTART_MARKER -/

theorem lowest_le_of_classify_leave {m : Byte} {d : BitVec 3} (h : classify m d = .leave) : 0xC0 ≤ m := by
  unfold classify at h
  split at h
  · cases h
  · next hm => exact BitVec.not_lt.1 hm

/-- What READ_RESTART_MARKER leaves of `s` when it succeeds (R320, R324, R325). -/
structure RestartDone (s t : State) : Prop where
  result  : t.result = .restartOk
  index   : t.nextRestartIndex = s.nextRestartIndex + 1
  pending : t.pendingMarker = 0 ∨ 0xC0 ≤ t.pendingMarker
  latch   : t.latch = s.latch

theorem State.resyncTurn_end {s t : State} (h : s.resyncTurn = .next t) (hidle : t.activity = .idle) :
    RestartDone s t := by
  rcases State.resyncTurn_next.1 h with ⟨-, rfl⟩ | ⟨hc, rfl⟩ | ⟨-, rfl⟩
  · cases hidle
  · exact ⟨rfl, rfl, .inr (lowest_le_of_classify_leave hc), rfl⟩
  · exact ⟨rfl, rfl, .inl rfl, rfl⟩

theorem State.restartFound_end {s t : State} {phase : RestartPhase} (h : s.restartFound phase = .next t)
    (hidle : t.activity = .idle) : RestartDone s t := by
  cases phase with
  | resyncing => exact State.resyncTurn_end h hidle
  | seeking =>
    rcases State.settleRestart_next.1 h with ⟨-, rfl⟩ | ⟨-, h⟩
    · exact ⟨rfl, rfl, .inl rfl, rfl⟩
    · obtain ⟨hresult, hindex, hpending, hlatch⟩ := State.resyncTurn_end h hidle
      exact ⟨hresult, hindex, hpending, hlatch⟩

/-! ### The results of both commands -/

/-- Settles O57: the ends of READ_MARKERS are those of `ReadEnd`, READ_RESTART_MARKER waits or is done. -/
theorem resultsOfCommands : Obligations.ResultsOfCommands := by
  refine ⟨fun s t run hi ha h hidle => ?_, fun s t phase run hi ha h hidle => ?_⟩
  · have hlatch : s.latch.fatal = false := by
      rw [hi.latch.clear (by rw [ha]; exact nofun)]; rfl
    have hkept : ∀ {u}, Acquired s u → u.latch.fatal = false ∧ u.rstate = s.rstate := fun hu =>
      ⟨by rw [hu.frame]; exact hlatch, hu.quiet.rstate⟩
    cases step_reading_end ha h hidle with
    | waits hp => exact .inl ⟨rfl, hlatch, rfl, .inl ⟨hp, rfl⟩⟩
    | @decoderWaits u acquired fetched =>
      obtain ⟨hl, hr⟩ := hkept acquired
      exact .inl ⟨rfl, hl, hr, .inr ⟨acquired.some, u, fetched, rfl⟩⟩
    | scanStart acquired effect =>
      obtain ⟨hr, hindex⟩ := effect.of_scanStart
      refine .inr (.inl ⟨rfl, ?_, hr, rfl, hindex⟩)
      rw [Decoded.after_latch, effect.latch]; exact (hkept acquired).1
    | endOfStream acquired =>
      obtain ⟨hl, hr⟩ := hkept acquired
      exact .inr (.inr (.inl ⟨rfl, hl, hr, rfl⟩))
    | wrong f hp hr cause =>
      refine .inr (.inr (.inr ⟨rfl, rfl, rfl, .inl ⟨hp, hr, ?_⟩⟩))
      exact congrArg FatalCause.code cause
    | @decoderFails u f acquired fetched =>
      exact .inr (.inr (.inr ⟨rfl, rfl, (hkept acquired).2, .inr ⟨acquired.some, u, f.cause, _, _, fetched, rfl⟩⟩))
  · cases step_restarting_next ha h with
    | suspended => exact .inl ⟨rfl, rfl, rfl, rfl, rfl⟩
    | garbage => cases hidle
    | fill => cases hidle
    | stuff => cases hidle
    | @found u _ acquired hfound =>
      obtain ⟨hresult, hindex, hpending, hlatch⟩ := State.restartFound_end hfound hidle
      refine .inr ⟨hresult, ?_, hpending, ?_⟩
      · rw [hindex, acquired.frame]
      · rw [hlatch, acquired.frame]

end Sys2Proof.Machine

/-! SUPPORT. A turn of READ_MARKERS on a source that has supplied more (`44_marker_reader.md` R290): but for a suspension it
looks, fetches and executes the same, and what an earlier command left in the result port plays no part. -/

namespace Sys2Proof.Machine

variable {src : ByteSource} {r : Result}

/-- What a turn of a running command leaves, on another source: the result port is the command's own once it has ended, and
an earlier command's until then. -/
def State.turnOnSource (src : ByteSource) (r : Result) (t : State) : State :=
  t.onSource src (if t.activity = .idle then t.result else r)

theorem State.turnOnSource_of_busy {t : State} (h : t.activity ≠ .idle) : t.turnOnSource src r = t.onSource src r := by
  rw [State.turnOnSource, if_neg h]

theorem State.turnOnSource_of_idle {t : State} (h : t.activity = .idle) :
    t.turnOnSource src r = t.onSource src t.result := by
  rw [State.turnOnSource, if_pos h]

/-- The outcome of a turn, on another source. -/
def outcomeOnSource (src : ByteSource) (r : Result) : StepOutcome → StepOutcome
  | .next t => .next (t.turnOnSource src r)
  | .fault f => .fault f
  | .refused q => .refused q

/-- What a turn fetches, on another source. -/
def Fetched.onSource (src : ByteSource) (r : Result) : Fetched → Fetched
  | .instr i u => .instr i (u.onSource src r)
  | .settled o => .settled (outcomeOnSource src r o)

/-! ### The scanner's looks and commits -/

theorem State.token_onSource {s : State} {run : Nat} (hx : Extends s.source src)
    (hs : src = s.source ∨ s.token run ≠ .starved) : (s.onSource src r).token run = s.token run := by
  rcases hs with rfl | hs
  · rfl
  · cases ht : s.token run with
    | starved => exact absurd ht hs
    | garbage =>
      obtain ⟨hrun, b, hb, hne⟩ := State.token_garbage.1 ht
      exact State.token_garbage.2 ⟨hrun, b, hx.peek hb, hne⟩
    | pair code =>
      obtain ⟨hfirst, hbehind⟩ := State.token_pair.1 ht
      exact State.token_pair.2 ⟨fun hrun => hx.peek (hfirst hrun), hx.peek hbehind⟩

theorem State.firstLook_onSource {s : State} (hx : Extends s.source src)
    (hs : src = s.source ∨ s.firstLook ≠ .starved) : (s.onSource src r).firstLook = s.firstLook := by
  rcases hs with rfl | hs
  · rfl
  · rcases s.firstLook_cases with ⟨hl, -⟩ | ⟨hav, -⟩
    · exact absurd hl hs
    · have hthere := ByteSource.has_of_le hav
      simp only [State.firstLook, State.onSource, hthere, hx.has hthere, hx.same _ (Nat.lt_of_add_right_lt hav),
        hx.same _ hav]

theorem State.advance_onSource (s : State) (n : Nat) :
    (s.onSource src r).advance n = (s.advance n).map fun t => t.onSource src r := by
  rw [State.advance_eq, State.advance_eq, apply_ite (Option.map _)]
  rfl

theorem State.acquire_onSource (s : State) (code : Byte) :
    (s.onSource src r).acquire code = (s.acquire code).map fun t => t.onSource src r := by
  have hwarn : (s.onSource src r).warnExtraneous code = (s.warnExtraneous code).onSource src r := by
    unfold State.warnExtraneous
    rw [apply_ite (State.onSource · src r)]
    rfl
  rw [State.acquire, hwarn]
  exact State.advance_onSource
    { s.warnExtraneous code with
        discardedByteCount := 0, pendingMarker := code, activity := s.activity.rewind } (s.activity.run + 2)

theorem State.acquireFirst_onSource (s : State) :
    (s.onSource src r).acquireFirst = s.acquireFirst.map fun t => t.onSource src r :=
  State.advance_onSource { s with pendingMarker := startOfImageCode, activity := s.activity.rewind } 2

theorem State.discard_onSource {s : State} (hbusy : s.activity ≠ .idle) (counted n : Nat) :
    (s.onSource src r).discard counted n = outcomeOnSource src r (s.discard counted n) := by
  have hmoved := State.advance_onSource (src := src) (r := r)
    { s.countDiscarded counted with activity := s.activity.rewind } n
  unfold State.discard
  refine (congrArg orOverflow hmoved).trans ?_
  cases ht : State.advance { s.countDiscarded counted with activity := s.activity.rewind } n with
  | none => rfl
  | some t =>
    obtain ⟨-, rfl⟩ := State.advance_some.1 ht
    exact congrArg Host.Outcome.next (State.turnOnSource_of_busy (mt Activity.rewind_eq_idle.1 hbusy)).symm

/-! ### Executing -/

theorem Decoded.after_onSource {v : State} (hbusy : v.activity ≠ .idle) (g : Signal) :
    Decoded.after (v.onSource src r) g = (Decoded.after v g).turnOnSource src r := by
  cases g with
  | proceed => exact (State.turnOnSource_of_busy (t := Decoded.after v .proceed) hbusy).symm
  | scanStart => rfl
  | endOfStream => rfl

theorem exec_marker_onSource {i : Instr} {u : State} (hi : isMarker i = true) (hbusy : u.activity ≠ .idle)
    (hx : Extends u.source src) (hs : src = u.source ∨ exec i u ≠ .next u.suspend) :
    exec i (u.onSource src r) = outcomeOnSource src r (exec i u) := by
  have hd : src = u.source ∨ decoderOf i u ≠ .suspend :=
    hs.imp_right fun hne hd => hne (by rw [exec_eq_complete hi, hd, State.complete_suspend])
  rw [exec_eq_complete hi, exec_eq_complete hi, decoderOf_onSource hx hd]
  cases hdec : decoderOf i u with
  | done v g =>
    have hv : v.activity ≠ .idle := by rwa [(decoderOf_done hdec).activity]
    rw [State.complete_done, Decoded.onSource, State.complete_done, Decoded.after_onSource hv]
    rfl
  | suspend => rfl
  | fatal f => rfl
  | overflow => rfl

/-- An instruction executed while a command runs. A command is refused on either source. -/
theorem exec_onSource {i : Instr} {u : State} (hbusy : u.activity ≠ .idle) (hx : Extends u.source src)
    (hs : src = u.source ∨ exec i u ≠ .next u.suspend) :
    exec i (u.onSource src r) = outcomeOnSource src r (exec i u) := by
  by_cases hi : isMarker i = true
  · exact exec_marker_onSource hi hbusy hx hs
  · have hcommand : ∀ k k' : StepOutcome, (u.onSource src r).whenIdle k = outcomeOnSource src r (u.whenIdle k') :=
      fun k k' => by
        rw [State.whenIdle_of_busy (s := u.onSource src r) k hbusy, State.whenIdle_of_busy k' hbusy]; rfl
    cases i
    case fill =>
      have hswallow : { u with activity := u.activity.swallow }.activity ≠ .idle := mt Activity.swallow_eq_idle.1 hbusy
      exact congrArg Host.Outcome.next (State.turnOnSource_of_busy hswallow).symm
    case stuff => exact State.discard_onSource hbusy _ _
    case nop => exact hcommand _ _
    case resetStream => exact hcommand _ _
    case readMarkers => exact hcommand _ _
    case readRestartMarker => exact hcommand _ _
    all_goals exact absurd rfl hi

/-! ### Fetching -/

theorem fetchAcquired_onSource (code : Byte) (acquired : Option State) :
    fetchAcquired code (acquired.map fun t => t.onSource src r) = (fetchAcquired code acquired).onSource src r := by
  cases acquired <;> rfl

theorem fetchPending_onSource (s : State) : fetchPending (s.onSource src r) = (fetchPending s).onSource src r := by
  unfold fetchPending
  rw [apply_ite (Fetched.onSource src r)]
  rfl

theorem fetchFirst_onSource {s : State} (hx : Extends s.source src)
    (hs : src = s.source ∨ fetchFirst s ≠ .settled (.next s.suspend)) :
    fetchFirst (s.onSource src r) = (fetchFirst s).onSource src r := by
  have hl : src = s.source ∨ s.firstLook ≠ .starved := hs.imp_right fun hne hl => hne (by rw [fetchFirst, hl])
  rw [fetchFirst, fetchFirst, State.firstLook_onSource hx hl]
  cases s.firstLook with
  | starved => rfl
  | wrong c1 c2 => rfl
  | found =>
    have hacq := fetchAcquired_onSource (src := src) (r := r) startOfImageCode s.acquireFirst
    rwa [← State.acquireFirst_onSource] at hacq

theorem fetchPair_onSource (s : State) (code : Byte) :
    fetchPair (s.onSource src r) code = (fetchPair s code).onSource src r := by
  unfold fetchPair
  rw [apply_ite (Fetched.onSource src r), State.acquire_onSource, fetchAcquired_onSource]
  rfl

theorem fetchNext_onSource {s : State} {run : Nat} (hbusy : s.activity ≠ .idle) (hx : Extends s.source src)
    (hs : src = s.source ∨ fetchNext s run ≠ .settled (.next s.suspend)) :
    fetchNext (s.onSource src r) run = (fetchNext s run).onSource src r := by
  have ht : src = s.source ∨ s.token run ≠ .starved := hs.imp_right fun hne ht => hne (by rw [fetchNext, ht])
  rw [fetchNext, fetchNext, State.token_onSource hx ht]
  cases s.token run with
  | starved => rfl
  | garbage => exact congrArg Fetched.settled (State.discard_onSource hbusy 1 1)
  | pair code => exact fetchPair_onSource s code

theorem fetchMarker_onSource {s : State} {run : Nat} (hbusy : s.activity ≠ .idle) (hx : Extends s.source src)
    (hs : src = s.source ∨ fetchMarker s run ≠ .settled (.next s.suspend)) :
    fetchMarker (s.onSource src r) run = (fetchMarker s run).onSource src r := by
  unfold fetchMarker at hs ⊢
  by_cases hp : s.hasPending = true
  · rw [if_pos hp, if_pos (show (s.onSource src r).hasPending = true from hp)]
    exact fetchPending_onSource s
  · rw [if_neg hp] at hs
    rw [if_neg hp, if_neg (show ¬(s.onSource src r).hasPending = true from hp)]
    by_cases hr : s.rstate = .awaitingStartOfImage
    · rw [if_pos hr] at hs
      rw [if_pos hr, if_pos (show (s.onSource src r).rstate = _ from hr)]
      exact fetchFirst_onSource hx hs
    · rw [if_neg hr] at hs
      rw [if_neg hr, if_neg (show ¬(s.onSource src r).rstate = _ from hr)]
      exact fetchNext_onSource hbusy hx hs

theorem fetchAcquired_instr {code : Byte} {m : Option State} {i : Instr} {u : State}
    (h : fetchAcquired code m = .instr i u) : m = some u := by
  cases m with
  | none => cases h
  | some v => cases h; rfl

theorem fetchPair_instr {s u : State} {code : Byte} {i : Instr} (h : fetchPair s code = .instr i u) :
    u = s ∨ Acquired s u := by
  unfold fetchPair at h
  split at h
  · cases h; exact .inl rfl
  · next hcode =>
    obtain ⟨hf, h0⟩ := not_or.1 hcode
    exact .inr (State.acquire_acquired h0 hf (fetchAcquired_instr h))

/-- What READ_MARKERS executes, it executes in the state it stands in or with a marker acquired. -/
theorem fetchMarker_instr {s u : State} {run : Nat} {i : Instr} (h : fetchMarker s run = .instr i u) :
    u = s ∨ Acquired s u := by
  unfold fetchMarker at h
  split at h
  · unfold fetchPending at h
    split at h
    · cases h
    · cases h; exact .inl rfl
  · split at h
    · unfold fetchFirst at h
      split at h
      · cases h
      · cases h
      · exact .inr (State.acquireFirst_acquired (fetchAcquired_instr h))
    · unfold fetchNext at h
      split at h
      · cases h
      · cases h
      · exact fetchPair_instr h

/-- A turn of READ_MARKERS is the same turn on a source that has supplied more, but for one that suspends. -/
theorem step_reading_onSource {s : State} {run : Nat} (ha : s.activity = .reading run) (hx : Extends s.source src)
    (hs : src = s.source ∨ ∀ u : State, step s ≠ .next u.suspend) :
    step (s.onSource src r) = outcomeOnSource src r (step s) := by
  have hbusy : s.activity ≠ .idle := by rw [ha]; exact nofun
  have hf := fetchMarker_onSource (r := r) (run := run) hbusy hx
    (hs.imp_right fun hne hf => hne s (step_of_settled ((fetch_reading ha).trans hf)))
  rw [← fetch_reading ha, ← fetch_reading (s := s.onSource src r) ha] at hf
  cases hfetch : fetch s with
  | settled o => rw [step_of_settled hfetch, step_of_settled (hf.trans (congrArg _ hfetch))]
  | instr i u =>
    have hu : u.activity ≠ .idle ∧ u.source = s.source := by
      rcases fetchMarker_instr ((fetch_reading ha).symm.trans hfetch) with rfl | hacq
      · exact ⟨hbusy, rfl⟩
      · exact ⟨hacq.busy hbusy, hacq.sameSurroundings.source⟩
    obtain ⟨hubusy, husource⟩ := hu
    rw [step_of_instr hfetch] at hs
    rw [step_of_instr hfetch, step_of_instr (hf.trans (congrArg _ hfetch))]
    exact exec_onSource hubusy (husource ▸ hx) (hs.imp (husource ▸ ·) (· u))

end Sys2Proof.Machine

/-! PROOF. A stream cut in two ends in the same state (`44_marker_reader.md` R290): READ_MARKERS on all the bytes follows the
first run as far as its last turn, which suspends, and from there the second run. -/

namespace Sys2Proof.Machine

variable {src src' : ByteSource} {s t u w : State}

/-! ### Runs -/

/-- Some number of steps leads from one state to the other. -/
abbrev Leads : State → State → Prop := Relation.ReflTransGen fun a b => step a = .next b

theorem runSteps_succ {n : Nat} (h : step s = .next t) : runSteps (n + 1) s = runSteps n t := by rw [runSteps, h]

theorem leads_of_runSteps {n : Nat} (h : runSteps n s = some w) : Leads s w := by
  induction n generalizing s with
  | zero => cases h; exact .refl
  | succ n ih =>
    cases hstep : step s with
    | next t => exact .head hstep (ih (runSteps_succ hstep ▸ h))
    | fault f => rw [runSteps, hstep] at h; cases h
    | refused q => rw [runSteps, hstep] at h; cases h

theorem Leads.exists_runSteps (h : Leads s w) : ∃ k, runSteps k s = some w := by
  induction h using Relation.ReflTransGen.head_induction_on with
  | refl => exact ⟨0, rfl⟩
  | head hstep _ ih =>
    obtain ⟨k, hk⟩ := ih
    exact ⟨k + 1, (runSteps_succ hstep).trans hk⟩

/-- The step is deterministic: a run that goes on goes through the next state. -/
theorem Leads.of_step (h : Leads s w) (hne : s ≠ w) (hstep : step s = .next t) : Leads t w := by
  rcases h.cases_head with rfl | ⟨t', hstep', h⟩
  · exact absurd rfl hne
  · rw [hstep] at hstep'
    rwa [Host.Outcome.next.inj hstep']

/-- Two states with the same step lead to the same states behind it. -/
theorem Leads.of_same_step (h : Leads s w) (hne : s ≠ w) (hsame : step t = step s) : Leads t w := by
  rcases h.cases_head with rfl | ⟨v, hstep, h⟩
  · exact absurd rfl hne
  · exact .head (hsame.trans hstep) h

theorem ne_of_activity (hs : s.activity ≠ .idle) (hw : w.activity = .idle) : s ≠ w := by
  rintro rfl
  exact hs hw

/-! ### READ_MARKERS in progress -/

/-- READ_MARKERS runs, in a safe state, on the source `src`, with nothing else to do behind it. -/
structure State.Reads (src : ByteSource) (s : State) : Prop where
  safe    : s.Inv
  reading : ∃ run, s.activity = .reading run
  source  : s.source = src
  inputs  : s.inputs = []

theorem State.Reads.busy (h : s.Reads src) : s.activity ≠ .idle := by
  obtain ⟨run, ha⟩ := h.reading
  rw [ha]; exact nofun

/-- A safe state that has swallowed introducers has no marker pending, so a marker that is acquired finds the Cursor at
`pos`. -/
theorem Acquired.reading {run : Nat} (h : Acquired s u) (hi : s.Inv) (ha : s.activity = .reading run) :
    u.activity = .reading 0 := by
  obtain ⟨-, hreading⟩ := hi.activity
  rw [ha] at hreading
  rcases h.phase with rfl | hphase
  · have hrun : run = 0 := by
      by_contra hrun
      exact h.some (hreading hrun).1
    rw [ha, hrun]
  · rw [hphase, ha]; rfl

theorem step_reading_activity {run : Nat} (hi : s.Inv) (ha : s.activity = .reading run) (h : step s = .next t) :
    t.activity = .idle ∨ ∃ run', t.activity = .reading run' := by
  cases step_reading_next ha h with
  | suspended => exact .inl rfl
  | wrong => exact .inl rfl
  | garbage => exact .inr ⟨_, rfl⟩
  | fill => exact .inr ⟨_, rfl⟩
  | stuff => exact .inr ⟨_, rfl⟩
  | marker acquired _ hexec =>
    rcases exec_marker_next (decodeCode_isMarker acquired.some acquired.legal) hexec with ⟨v, g, he, rfl⟩ | rfl | ⟨f, rfl⟩
    · cases g with
      | proceed => exact .inr ⟨0, he.activity.trans (acquired.reading hi ha)⟩
      | scanStart => exact .inl rfl
      | endOfStream => exact .inl rfl
    · exact .inl rfl
    · exact .inl rfl

theorem State.Reads.next (h : s.Reads src) (hstep : step s = .next t) : t.activity = .idle ∨ t.Reads src := by
  obtain ⟨run, ha⟩ := h.reading
  have hsame := sameSurroundings_of_step_running h.busy hstep
  exact (step_reading_activity h.safe ha hstep).imp_right fun hreading =>
    ⟨h.safe.step hstep, hreading, hsame.source.trans h.source, hsame.inputs.trans h.inputs⟩

/-- With no command in progress and no input the core stands still (R382). -/
theorem step_of_rest (ha : s.activity = .idle) (hin : s.inputs = []) : step s = .next s := step_of_input ha hin rfl

/-- A run of READ_MARKERS stands within the command, or behind the last turn of it. -/
theorem State.Reads.leads (h : s.Reads src) (hrun : Leads s t) :
    t.Reads src ∨ t.activity = .idle ∧ t.inputs = [] ∧ ∃ b, Leads s b ∧ b.Reads src ∧ step b = .next t := by
  induction hrun with
  | refl => exact .inl h
  | @tail b c hsb hstep ih =>
    rcases ih with hb | ⟨hidle, hin, hlast⟩
    · rcases hb.next hstep with hidle | hc
      · exact .inr ⟨hidle, (sameSurroundings_of_step_running hb.busy hstep).inputs.trans hb.inputs, b, hsb, hb, hstep⟩
      · exact .inl hc
    · rw [step_of_rest hidle hin] at hstep
      cases hstep
      exact .inr ⟨hidle, hin, hlast⟩

/-! ### The result port of an earlier command -/

/-- How a run of READ_MARKERS ends does not depend on what an earlier command left in the result port. -/
theorem Leads.with_result (h : Leads s w) (hs : s.Reads src) (hw : w.activity = .idle) (r : Result) :
    Leads (s.onSource src r) w := by
  induction h using Relation.ReflTransGen.head_induction_on with
  | refl => exact absurd hw hs.busy
  | @head a c hstep hcw ih =>
    obtain ⟨run, ha⟩ := hs.reading
    have hstep' := step_reading_onSource (r := r) ha (hs.source ▸ Extends.refl _) (.inl hs.source.symm)
    rw [hstep] at hstep'
    rcases hs.next hstep with hidle | hc
    · have hsource : c.source = src := (sameSurroundings_of_step_running hs.busy hstep).source.trans hs.source
      have hkept : c.turnOnSource src r = c := by rw [State.turnOnSource_of_idle hidle, ← hsource]; rfl
      exact .head (hstep'.trans (by rw [outcomeOnSource, hkept])) hcw
    · exact .head (hstep'.trans (by rw [outcomeOnSource, State.turnOnSource_of_busy hc.busy])) (ih hc)

/-! ### More bytes -/

/-- Within the command a run of READ_MARKERS is the same on a source that has supplied more. -/
theorem Leads.on_more (h : Leads s t) (hs : s.Reads src) (ht : t.Reads src) (hx : Extends src src') (r : Result) :
    Leads (s.onSource src' r) (t.onSource src' r) := by
  induction h with
  | refl => exact .refl
  | @tail b c hsb hstep ih =>
    rcases hs.leads hsb with hb | ⟨hidle, hin, -⟩
    · obtain ⟨run, ha⟩ := hb.reading
      have hgoes : ∀ v : State, step b ≠ .next v.suspend := fun v hv => by
        rw [hstep] at hv
        cases hv
        exact ht.busy rfl
      have hstep' := step_reading_onSource (r := r) ha (hb.source.symm ▸ hx) (.inr hgoes)
      rw [hstep, outcomeOnSource, State.turnOnSource_of_busy ht.busy] at hstep'
      exact (ih hb).tail hstep'
    · rw [step_of_rest hidle hin] at hstep
      cases hstep
      exact absurd hidle ht.busy

/-- A retry swallows the run of introducers again that stood at `pos` when the scanner suspended (R142, R143). -/
theorem Leads.past_swallowed {run : Nat} (hs : s.Reads src) (ha : s.activity = .reading run) (hp : s.pendingMarker = 0)
    (hw : w.activity = .idle) (h : Leads { s with activity := .reading 0 } w) : Leads s w := by
  obtain ⟨hholds, hreading⟩ := hs.safe.activity
  rw [ha] at hholds hreading
  have hseen : ∀ j ≤ run, run ≠ 0 → s.source.peek (s.pos.toNat + j) = some introducer := fun j hj hrun => by
    have := hholds hrun j (by rw [List.length_replicate]; exact Nat.lt_succ_of_le hj)
    rwa [List.getElem_replicate] at this
  have hswallow : ∀ j ≤ run, Leads { s with activity := .reading j } w := fun j hj => by
    induction j with
    | zero => exact h
    | succ j ih =>
      have hrun : run ≠ 0 := by omega
      have htoken : { s with activity := .reading j }.token j = .pair introducer :=
        State.token_pair.2 ⟨fun _ => hseen 0 (Nat.zero_le _) hrun, hseen (j + 1) hj hrun⟩
      have hfetch := fetch_pair (s := { s with activity := .reading j }) rfl hp (hreading hrun).2 htoken
      rw [fetchPair_of_escape (.inl rfl)] at hfetch
      exact (ih (Nat.le_of_succ_le hj)).of_step (ne_of_activity nofun hw) (step_of_instr hfetch)
  rw [show s = { s with activity := .reading run } by rw [← ha]]
  exact hswallow run le_rfl

/-- A running READ_MARKERS is as safe on a source that has supplied more. -/
theorem State.Reads.on_more (hs : s.Reads src) (hx : Extends src src') (hm : Memory.wf src'.bytes) (r : Result) :
    (s.onSource src' r).Reads src' := by
  obtain ⟨hholds, hactivity⟩ := hs.safe.activity
  have hholds' : (s.onSource src' r).activity.run ≠ 0 →
      src'.Holds s.pos.toNat (List.replicate (s.activity.run + 1) introducer) := fun hrun k hk =>
    hx.peek (hs.source ▸ hholds hrun k hk)
  exact ⟨hs.safe.transfer (.of_eq rfl) hm hs.safe.pending (State.latchInv_of_clear (hs.safe.latch.clear hs.busy))
    ⟨hholds', hactivity⟩, hs.reading, rfl, hs.inputs⟩

/-! ### The retry -/

/-- READ_MARKERS has begun on a source. -/
def State.begun (s : State) (src : ByteSource) : State := { s with source := src, inputs := [], activity := .reading 0 }

theorem State.Inv.begun (hi : s.Inv) (hl : s.latch.fatal = false) (hm : Memory.wf src.bytes) : (s.begun src).Reads src :=
  ⟨hi.transfer (.of_eq rfl) hm hi.pending (State.latchInv_of_clear (hi.latch.1 hl)) (State.activityInv_of_reading rfl),
    ⟨0, rfl⟩, rfl, rfl⟩

/-- A fill and READ_MARKERS are taken in two steps, and lead on from there (R72, R281). -/
theorem leads_fill_readMarkers (ha : s.activity = .idle) (hl : s.latch.fatal = false) (bs : List Byte)
    (hin : w.inputs = []) :
    Leads { s with inputs := [.fill bs, .command 2] } w ↔ Leads (s.begun (s.source.fill bs)) w := by
  have hfill : step { s with inputs := [.fill bs, .command 2] } =
      .next { s with source := s.source.fill bs, inputs := [.command 2] } := step_of_input ha rfl rfl
  have hread : step { s with source := s.source.fill bs, inputs := [.command 2] } = .next (s.begun (s.source.fill bs)) :=
    have hfetch : fetch { s with source := s.source.fill bs, inputs := [.command 2] } =
        .instr .readMarkers { s with source := s.source.fill bs, inputs := [] } := fetch_idle ha
    (step_of_instr hfetch).trans (execReadMarkers_next.2 ⟨ha, .inr ⟨hl, rfl⟩⟩)
  have hne : ∀ {v : State}, v.inputs ≠ [] → v ≠ w := fun hv h => hv (h ▸ hin)
  exact ⟨fun h => (h.of_step (hne (List.cons_ne_nil _ _)) hfill).of_step (hne (List.cons_ne_nil _ _)) hread,
    fun h => .head hfill (.head hread h)⟩

/-- READ_MARKERS suspends in the scanner, with no marker pending, or in the decoder of the marker that it leaves pending. -/
theorem ReadEnd.suspended (h : ReadEnd s t) (hresult : t.result = .suspended) :
    s.pendingMarker = 0 ∧ t = s.suspend ∨
      ∃ u, Acquired s u ∧ fetch s = .instr (decodeCode u.pendingMarker) u ∧ t = u.suspend := by
  cases h with
  | waits hp => exact .inl ⟨hp, rfl⟩
  | decoderWaits acquired fetched => exact .inr ⟨_, acquired, fetched, rfl⟩
  | wrong => cases hresult
  | decoderFails => cases hresult
  | scanStart => cases hresult
  | endOfStream => cases hresult

theorem State.Reads.latch_of_suspended (hs : s.Reads src) (h : ReadEnd s t) (hresult : t.result = .suspended) :
    t.latch.fatal = false := by
  have hlatch : s.latch.fatal = false := by rw [hs.safe.latch.clear hs.busy]; rfl
  rcases h.suspended hresult with ⟨-, rfl⟩ | ⟨u, acquired, -, rfl⟩
  · exact hlatch
  · rwa [State.suspend_latch, acquired.frame]

/-- A marker acquired on more bytes is executed as the retry executes it, which finds it pending. -/
theorem step_acquired_on_more {run : Nat} (hs : s.Reads src) (ha : s.activity = .reading run) (hx : Extends src src')
    (acquired : Acquired s u) (fetched : fetch s = .instr (decodeCode u.pendingMarker) u) (r : Result) :
    step (s.onSource src' r) = step (u.onSource src' r) := by
  have hmarker := fetchMarker_onSource (src := src') (r := r) (run := run) hs.busy (hs.source.symm ▸ hx)
    (.inr (by rw [← fetch_reading ha, fetched]; exact nofun))
  rw [← fetch_reading ha, ← fetch_reading (s := s.onSource src' r) ha, fetched] at hmarker
  have hpending := fetch_pending (s := u.onSource src' r) (acquired.reading hs.safe ha) acquired.some acquired.legal
  rw [step_of_instr hmarker, step_of_instr hpending]
  rfl

/-- What the retry reaches, the turn that suspended reaches on all the bytes. -/
theorem State.Reads.reaches_retried (hs : s.Reads src) (hstep : step s = .next t) (hidle : t.activity = .idle)
    (hresult : t.result = .suspended) (hx : Extends src src') (hm : Memory.wf src'.bytes) (hw : w.activity = .idle)
    (hretry : Leads (t.begun src') w) (r : Result) : Leads (s.onSource src' r) w := by
  obtain ⟨run, ha⟩ := hs.reading
  have hend := step_reading_end ha hstep hidle
  have hbegun : (t.begun src').Reads src' := (hs.safe.step hstep).begun (hs.latch_of_suspended hend hresult) hm
  rcases hend.suspended hresult with ⟨hp, rfl⟩ | ⟨u, acquired, fetched, rfl⟩
  · have hmore := hs.on_more hx hm .suspended
    have hsame : s.suspend.begun src' = { s.onSource src' .suspended with activity := .reading 0 } := by
      rw [State.begun, ← hs.inputs]; rfl
    exact (Leads.past_swallowed hmore ha hp hw (hsame ▸ hretry)).with_result hmore hw r
  · have hsame : (u.suspend.begun src').onSource src' r = u.onSource src' r := by
      rw [State.begun, ← acquired.reading hs.safe ha, ← acquired.sameSurroundings.inputs.trans hs.inputs]; rfl
    have hpending := hretry.with_result hbegun hw r
    rw [hsame] at hpending
    refine hpending.of_same_step (ne_of_activity ?_ hw) (step_acquired_on_more hs ha hx acquired fetched r)
    exact acquired.busy hs.busy

/-- Settles O59: all the bytes lead along the first run to its last turn, and from there along the retry. -/
theorem chunkingDoesNotMatter : Obligations.ChunkingDoesNotMatter := by
  intro s u w xs ys n m hi ha hl hfirst huin hidle hresult hretry hwin hw
  have hm : Memory.wf (s.source.fill xs).bytes := ByteSource.fill_wf xs hi.memory
  have hbegun : (s.begun (s.source.fill xs)).Reads (s.source.fill xs) := hi.begun hl hm
  have hrun := (leads_fill_readMarkers ha hl xs huin).1 (leads_of_runSteps hfirst)
  rcases hbegun.leads hrun with hu | ⟨-, -, b, hsb, hb, hlast⟩
  · exact absurd hidle hu.busy
  · obtain ⟨run, hab⟩ := hb.reading
    have hlatch : u.latch.fatal = false := hb.latch_of_suspended (step_reading_end hab hlast hidle) hresult
    have hsource : u.source = s.source.fill xs := (sameSurroundings_of_step_running hb.busy hlast).source.trans hb.source
    have hw' := (leads_fill_readMarkers hidle hlatch ys hwin).1 (leads_of_runSteps hretry)
    rw [hsource] at hw'
    have hx : Extends (s.source.fill xs) ((s.source.fill xs).fill ys) := Extends.of_fill _ ys hm
    have hall : Leads (s.begun ((s.source.fill xs).fill ys)) w :=
      (hsb.on_more hbegun hb hx s.result).trans
        (hb.reaches_retried hlast hidle hresult hx (ByteSource.fill_wf ys hm) hw hw' s.result)
    rw [ByteSource.fill_append] at hall
    exact ((leads_fill_readMarkers ha hl (xs ++ ys) hwin).2 hall).exists_runSteps

end Sys2Proof.Machine

/-! PROOF. RestartResync (`45_restart_resync.md` R320 to R328): the classification of a marker, READ_RESTART_MARKER on a state
between commands, and the liberties of the entropy stage. -/

namespace Sys2Proof.Machine

/-! ### The classification -/

/-- Restart marker `k` lies in the range of the restart markers and has index `k` (R112 (h)). -/
theorem restartCode_inRange (k : BitVec 3) :
    ¬restartCode k < lowestFrameCode ∧ ¬(restartCode k < restartBase ∨ 0xD7 < restartCode k) ∧
      restartIndex (restartCode k) = k := by
  revert k; decide

theorem restartCode_ne_zero (k : BitVec 3) : restartCode k ≠ 0 := by revert k; decide

/-- A restart marker is classified by its distance from the expected index (R322, R328). -/
theorem classify_restartCode (k d : BitVec 3) :
    classify (restartCode k) d =
      if k - d = 1 ∨ k - d = 2 then .leave else if k - d = 7 ∨ k - d = 6 then .scanForward else .discard := by
  obtain ⟨hframe, hrange, hindex⟩ := restartCode_inRange k
  rw [classify, if_neg hframe, if_neg hrange, hindex]
  simp only [sub_eq_iff_eq_add']

/-- Settles O14: the ranges are the tests of `Classify` in order; for a restart marker eight distances are left. -/
theorem classificationTable : Obligations.ClassificationTable := by
  refine fun m d => ⟨fun hlow => if_pos hlow, fun hframe hrange => ?_, ?_⟩
  · exact (if_neg (BitVec.not_lt.2 hframe)).trans (if_pos hrange)
  · rintro k rfl
    rw [← restartBase, ← restartCode, classify_restartCode]
    generalize k - d = distance
    revert distance; decide

/-! ### READ_RESTART_MARKER between commands -/

/-- With no command in progress a success writes the expected index and the result port only. -/
theorem State.restartOk_of_idle (s : State) (ha : s.activity = .idle) :
    s.restartOk = { s with nextRestartIndex := s.nextRestartIndex + 1, result := .restartOk } :=
  State.finish_of_idle (s := { s with nextRestartIndex := s.nextRestartIndex + 1 }) .restartOk ha

/-- READ_RESTART_MARKER outside a scan, the latch clear (R320, R364 (a)). -/
theorem execReadRestartMarker_outside {s : State} (ha : s.activity = .idle) (hl : s.latch.fatal = false)
    (hr : s.rstate ≠ .inScan) : exec .readRestartMarker s = .refused .restartOutsideScan := by
  show s.whenIdle _ = _
  simp [State.whenIdle, ha, hl, hr]

/-- A pending marker that is not the expected one: the diagnostic, then a turn of `Resync` (R320, R321, R326). -/
theorem execReadRestartMarker_resync {s t : State} (ha : s.activity = .idle) (hl : s.latch.fatal = false)
    (hr : s.rstate = .inScan) (hp : s.pendingMarker ≠ 0) (hne : s.pendingMarker ≠ restartCode s.nextRestartIndex)
    (h : (s.emit .mustResync (s.pendingMarker.setWidth 32) (s.nextRestartIndex.setWidth 32)).resyncTurn = .next t) :
    exec .readRestartMarker s = .next t := by
  rw [execReadRestartMarker_pending ha hl hr hp]
  exact State.settleRestart_next.2 (.inr ⟨hne, h⟩)

/-- Settles O13: a pending marker that is not the expected one is logged, and its classification says how `Resync` acts. -/
theorem readRestartMarkerCases : Obligations.ReadRestartMarkerCases := by
  intro s ha
  refine ⟨fun hl => ?_, fun hl hr => execReadRestartMarker_outside ha hl hr,
    fun hl hr => ⟨fun hp => ?_, fun hexpected => ?_, fun hp hne => ?_⟩⟩
  · exact execReadRestartMarker_next.2 ⟨ha, .inl ⟨hl, (State.finish_of_idle .fatalError ha).symm⟩⟩
  · exact execReadRestartMarker_next.2 ⟨ha, .inr (.inl ⟨hl, hr, hp, rfl⟩)⟩
  · rw [execReadRestartMarker_pending ha hl hr (hexpected ▸ restartCode_ne_zero _)]
    exact State.settleRestart_next.2 (.inl ⟨hexpected, (State.restartOk_of_idle { s with pendingMarker := 0 } ha).symm⟩)
  · intro logged
    refine ⟨fun hleave => ?_, fun hdiscard => ?_, fun hscan => ?_⟩ <;>
      refine execReadRestartMarker_resync ha hl hr hp hne (State.resyncTurn_next.2 ?_)
    · exact .inr (.inl ⟨hleave, (State.restartOk_of_idle { s with events := logged } ha).symm⟩)
    · exact .inr (.inr ⟨hdiscard, (State.restartOk_of_idle { s with events := logged, pendingMarker := 0 } ha).symm⟩)
    · exact .inl ⟨hscan, rfl⟩

/-! ### The entropy stage -/

/-- Coded data is consumed in a scan, with the latch clear, within the bytes supplied (R327 (a)). -/
theorem State.consume_eq (s : State) (n : Nat) :
    s.consume n =
      if s.rstate = .inScan ∧ s.latch.fatal = false ∧ s.pos.toNat + n ≤ s.source.avail then orOverflow (s.advance n)
      else .refused .entropyLiberty := by
  simp [State.consume, State.entropyMayAct_iff, and_assoc]

/-- A marker is handed over in a scan, with the latch clear and none pending (R327 (b)). -/
theorem State.handOver_eq (s : State) (code : Byte) :
    s.handOver code =
      if s.rstate = .inScan ∧ s.latch.fatal = false ∧ s.pendingMarker = 0 ∧ code ≠ 0x00 ∧ code ≠ 0xFF then
        .next { s with pendingMarker := code }
      else .refused .entropyLiberty := by
  simp [State.handOver, State.entropyMayAct_iff, isMarkerCode, and_assoc]

theorem orOverflow_advance_of_room {s : State} {n : Nat} (h : s.Room n) :
    orOverflow (s.advance n) = .next { s with pos := BitVec.ofNat 64 (s.pos.toNat + n) } :=
  orOverflow_next.2 (State.advance_some.2 ⟨h, rfl⟩)

/-- Settles O44: a refusal is the negation of the one condition each liberty has. -/
theorem entropyStageLiberties : Obligations.EntropyStageLiberties := by
  refine fun s rest ha => ⟨fun n hin => ?_, fun code hin => ?_⟩
  · rw [step_of_input ha hin rfl, State.consume_eq]
    refine ⟨fun hs hl hav hroom => ?_, fun hnot => if_neg ?_⟩
    · exact (if_pos ⟨hs, hl, hav⟩).trans (orOverflow_advance_of_room hroom)
    · simpa only [not_and_or, Bool.not_eq_false, not_le] using hnot
  · rw [step_of_input ha hin rfl, State.handOver_eq]
    refine ⟨fun hs hl hp h0 hf => if_pos ⟨hs, hl, hp, h0, hf⟩, fun hnot => if_neg ?_⟩
    simpa only [not_and_or, Bool.not_eq_false, not_not] using hnot

end Sys2Proof.Machine

/-! PROOF. Fatal errors are precise (`60_exceptions.md` R340, R341, R357): what an instruction leaves of the latch. -/

namespace Sys2Proof.Machine

/-- Code 0 is no cause's (R341). -/
theorem FatalCause.code_ne_zero (cause : FatalCause) : cause.code ≠ 0 := by cases cause <;> decide

/-- A marker instruction keeps the latch, or takes a fatal error in the state it was given (R357). -/
theorem exec_marker_latch {i : Instr} {s t : State} (hi : isMarker i = true) (h : exec i s = .next t) :
    t.latch = s.latch ∨ ∃ f, t = s.raiseFatal f := by
  rcases exec_marker_next hi h with ⟨u, g, effect, rfl⟩ | rfl | hfatal
  · exact .inl ((Decoded.after_latch u g).trans effect.latch)
  · exact .inl s.suspend_latch
  · exact .inr hfatal

/-- The escapes and the commands but RESET_STREAM keep the latch: none of them raises a fatal error (R340). -/
theorem exec_nonmarker_latch {i : Instr} {s t : State} (hi : isMarker i ≠ true) (hne : i ≠ .resetStream)
    (h : exec i s = .next t) : t.latch = s.latch := by
  cases i
  case fill => rw [execFill_next.1 h]
  case stuff => rw [(execStuff_next.1 h).2]
  case nop => rw [(execNop_next.1 h).2, State.finish_latch]
  case resetStream => exact absurd rfl hne
  case readMarkers => obtain ⟨-, ⟨-, rfl⟩ | ⟨-, rfl⟩⟩ := execReadMarkers_next.1 h <;> rfl
  case readRestartMarker =>
    obtain ⟨-, ⟨-, rfl⟩ | ⟨-, -, -, rfl⟩ | ⟨-, -, -, h⟩⟩ := execReadRestartMarker_next.1 h
    · rfl
    · rfl
    · rw [(State.settleRestart_frame h).1]
  all_goals exact absurd rfl hi

/-- Settles O36: only a marker instruction changes the latch, and only by taking a fatal error. -/
theorem fatalErrorsArePrecise : Obligations.FatalErrorsArePrecise := by
  intro i s t hne h hlatch
  by_cases hi : isMarker i = true
  · obtain ⟨f, rfl⟩ := (exec_marker_latch hi h).resolve_left hlatch
    exact ⟨f.cause, _, _, rfl, f.cause.code_ne_zero⟩
  · exact absurd (exec_nonmarker_latch hi hne h) hlatch

end Sys2Proof.Machine

/-! PROOF. Every command ends (`70_reset_and_hazards.md` R392, R393; `60_exceptions.md` R356): with room behind the bytes
supplied, a step of a running command answers a next state, and ends the command or leaves it fewer turns. -/

namespace Sys2Proof.Machine

variable {s t u : State}

/-! ### The turns a running command has left -/

/-- Where the Cursor stands (R142). -/
def State.cursor (s : State) : Nat := s.pos.toNat + s.activity.run

/-- A bound on the turns a running command has left: one for each byte supplied from the Cursor on, one for a marker that is
pending, and one that finds no byte and ends the command. -/
def State.turnsLeft (s : State) : Nat := s.source.avail - s.cursor + s.hasPending.toNat + 1

theorem State.hasPending_of_zero (h : s.pendingMarker = 0) : s.hasPending = false := by simp [State.hasPending, h]

theorem State.hasPending_of_ne_zero (h : s.pendingMarker ≠ 0) : s.hasPending = true := bne_iff_ne.2 h

/-- The two turns more are those of a pending marker and of the end. -/
theorem State.turnsLeft_le (s : State) : s.turnsLeft ≤ s.source.avail - s.pos.toNat + 2 := by
  have := s.hasPending.toNat_le
  simp only [State.turnsLeft, State.cursor]; omega

/-- The outcome is a next state, in which the command of `s` has ended or has fewer turns left. -/
def State.Nears (s : State) (o : StepOutcome) : Prop := ∃ t, o = .next t ∧ (t.activity = .idle ∨ t.turnsLeft < s.turnsLeft)

theorem State.Nears.ended (h : t.activity = .idle) : s.Nears (.next t) := ⟨t, rfl, .inl h⟩

theorem State.Nears.of_lt {o : StepOutcome} (h : u.Nears o) (hlt : u.turnsLeft < s.turnsLeft) : s.Nears o := by
  obtain ⟨t, ho, hidle | hless⟩ := h
  · exact ⟨t, ho, .inl hidle⟩
  · exact ⟨t, ho, .inr (hless.trans hlt)⟩

/-! ### The scanner's turns -/

theorem State.token_pair_lt_avail {run : Nat} {code : Byte} (h : s.token run = .pair code) :
    s.pos.toNat + run + 1 < s.source.avail := (ByteSource.peek_eq_some.1 (State.token_pair.1 h).2).1

/-- A progressive commit past the Cursor, within the bytes supplied (R142). -/
theorem State.nears_discard {counted n : Nat} (hpast : s.activity.run < n) (hend : s.pos.toNat + n ≤ s.source.avail)
    (hroom : s.source.avail < 2 ^ 64) : s.Nears (s.discard counted n) := by
  have hpos : s.pos.toNat + n < 2 ^ 64 := by omega
  refine ⟨_, State.discard_next.2 ⟨hpos, rfl⟩, .inr ?_⟩
  simp only [State.turnsLeft, State.cursor, State.hasPending, Activity.rewind_run, toNat_ofNat_pos hpos]
  omega

section Looks
variable {run : Nat} {code : Byte} (hrun : s.activity.run = run)
include hrun

theorem State.nears_garbage (ht : s.token run = .garbage) (hroom : s.source.avail < 2 ^ 64) :
    s.Nears s.discardGarbage := by
  obtain ⟨hzero, b, hb, -⟩ := State.token_garbage.1 ht
  have hav := (ByteSource.peek_eq_some.1 hb).1
  exact State.nears_discard (by omega) hav hroom

/-- FILL moves the Cursor over one introducer (R143). -/
theorem State.nears_fill (hbusy : s.activity ≠ .idle) (ht : s.token run = .pair code) : s.Nears (exec .fill s) := by
  have hav := State.token_pair_lt_avail ht
  have hswallow : s.activity.swallow.run = s.activity.run + 1 := by
    cases ha : s.activity with
    | idle => exact absurd ha hbusy
    | reading => rfl
    | restarting => rfl
  refine ⟨_, execFill_next.2 rfl, .inr ?_⟩
  simp only [State.turnsLeft, State.cursor, State.hasPending, hswallow]
  omega

theorem State.nears_stuff (ht : s.token run = .pair code) (hroom : s.source.avail < 2 ^ 64) : s.Nears (exec .stuff s) :=
  State.nears_discard (by omega) (by have := State.token_pair_lt_avail ht; omega) hroom

/-- A marker found costs at least the two bytes that it is read from, and is pending then (R142). -/
theorem State.acquire_turnsLeft_lt (ht : s.token run = .pair code) (h : s.acquire code = some u) :
    u.turnsLeft < s.turnsLeft := by
  have hav := State.token_pair_lt_avail ht
  obtain ⟨hpos, rfl⟩ := State.acquire_some.1 h
  have := Bool.toNat_le (code != 0)
  simp only [State.turnsLeft, State.cursor, State.hasPending, Activity.rewind_run, toNat_ofNat_pos hpos]
  omega

theorem State.acquire_ne_none (ht : s.token run = .pair code) (hroom : s.source.avail < 2 ^ 64) :
    s.acquire code ≠ none := by
  have hav := State.token_pair_lt_avail ht
  rw [State.acquire_some.2 ⟨by omega, rfl⟩]
  exact nofun

end Looks

/-- The first marker costs its two bytes (R146). -/
theorem State.acquireFirst_turnsLeft_lt (hrun : s.activity.run = 0) (hav : s.pos.toNat + 2 ≤ s.source.avail)
    (h : s.acquireFirst = some u) : u.turnsLeft < s.turnsLeft := by
  obtain ⟨hpos, rfl⟩ := State.acquireFirst_some.1 h
  have := Bool.toNat_le (startOfImageCode != 0)
  simp only [State.turnsLeft, State.cursor, State.hasPending, Activity.rewind_run, toNat_ofNat_pos hpos, hrun]
  omega

theorem State.acquireFirst_ne_none (hav : s.pos.toNat + 2 ≤ s.source.avail) (hroom : s.source.avail < 2 ^ 64) :
    s.acquireFirst ≠ none := by
  rw [State.acquireFirst_some.2 ⟨by omega, rfl⟩]
  exact nofun

/-! ### A marker is dispatched or classified -/

/-- With room for one more segment behind the bytes supplied no decoder is refused (R160 (f)). -/
theorem exec_marker_is_next {i : Instr} (hi : isMarker i = true) (hroom : u.source.avail + 2 ^ 16 ≤ 2 ^ 64) :
    ∃ t, exec i u = .next t := by
  cases hexec : exec i u with
  | next t => exact ⟨t, rfl⟩
  | fault f => exact absurd hexec (exec_marker_ne_fault hi)
  | refused r =>
    rw [exec_eq_complete hi] at hexec
    obtain ⟨l, hl, hno⟩ := decoderOf_overflow (State.complete_refused hexec).1
    have hav := (ByteSource.half_eq_some.1 hl).1
    have := l.isLt
    omega

/-- The dispatcher ends the command, or clears the pending marker and moves `pos` only forward (R22, R281). -/
theorem nears_marker {i : Instr} (hi : isMarker i = true) (hp : u.pendingMarker ≠ 0)
    (hroom : u.source.avail + 2 ^ 16 ≤ 2 ^ 64) : u.Nears (exec i u) := by
  obtain ⟨t, ht⟩ := exec_marker_is_next hi hroom
  obtain ⟨-, hsource, -, hpos, -⟩ := exec_marker_keeps hi ht
  refine ⟨t, ht, ?_⟩
  rcases exec_marker_next hi ht with ⟨v, g, he, rfl⟩ | rfl | ⟨f, rfl⟩
  · cases g with
    | proceed =>
      have hactivity : (Decoded.after v .proceed).activity = u.activity := he.activity
      have hcleared : (Decoded.after v .proceed).hasPending = false := State.hasPending_of_zero rfl
      refine .inr ?_
      simp only [State.turnsLeft, State.cursor, hsource, hactivity, hcleared, State.hasPending_of_ne_zero hp,
        Bool.toNat_false, Bool.toNat_true]
      omega
    | scanStart => exact .inl rfl
    | endOfStream => exact .inl rfl
  · exact .inl rfl
  · exact .inl rfl

/-- The same for a marker acquired in this turn, whose bytes are turns less. -/
theorem Acquired.nears_marker {i : Instr} (acquired : Acquired s u) (hi : isMarker i = true)
    (hroom : s.source.avail + 2 ^ 16 ≤ 2 ^ 64) (hlt : u.turnsLeft < s.turnsLeft) : s.Nears (exec i u) :=
  (Machine.nears_marker hi acquired.some (by rwa [acquired.sameSurroundings.source])).of_lt hlt

/-- `Resync` ends the command or scans on from `pos` (R321 to R325). -/
theorem State.resyncTurn_turnsLeft_le (hrun : u.activity.run = 0) (h : u.resyncTurn = .next t) :
    t.activity = .idle ∨ t.turnsLeft ≤ u.turnsLeft := by
  rcases State.resyncTurn_next.1 h with ⟨-, rfl⟩ | ⟨-, rfl⟩ | ⟨-, rfl⟩
  · refine .inr (le_of_eq ?_)
    rw [State.turnsLeft, State.turnsLeft, State.cursor, State.cursor, hrun]; rfl
  · exact .inl rfl
  · exact .inl rfl

theorem State.restartFound_turnsLeft_le {phase : RestartPhase} (hrun : u.activity.run = 0)
    (h : u.restartFound phase = .next t) : t.activity = .idle ∨ t.turnsLeft ≤ u.turnsLeft := by
  cases phase with
  | resyncing => exact State.resyncTurn_turnsLeft_le hrun h
  | seeking =>
    rcases State.settleRestart_next.1 h with ⟨-, rfl⟩ | ⟨-, h⟩
    · exact .inl rfl
    · exact State.resyncTurn_turnsLeft_le (u := u.emit ..) hrun h

/-! ### The steps of both commands -/

section Steps
variable (hroom : s.source.avail + 2 ^ 16 ≤ 2 ^ 64)
include hroom

theorem step_reading_nears {run : Nat} (hi : s.Inv) (ha : s.activity = .reading run) : s.Nears (step s) := by
  have hrun : s.activity.run = run := by rw [ha]; rfl
  have hbusy : s.activity ≠ .idle := by rw [ha]; exact nofun
  have hroom' : s.source.avail < 2 ^ 64 := by omega
  have hturn := step_reading ha
  generalize step s = o at hturn
  cases hturn with
  | starved => exact .ended rfl
  | wrong => exact .ended rfl
  | first hp hr _ hav hu =>
    have hzero : s.activity.run = 0 := by
      obtain ⟨-, hreading⟩ := hi.activity
      rw [ha] at hreading
      by_contra hne
      exact (hreading (hrun ▸ hne)).2 hr
    exact (State.acquireFirst_acquired hu).nears_marker rfl hroom (State.acquireFirst_turnsLeft_lt hzero hav hu)
  | pending h0 hf => exact nears_marker (decodeCode_isMarker h0 hf) h0 hroom
  | stuck h => exact absurd h hi.pending.1
  | garbage _ _ ht => exact State.nears_garbage hrun ht hroom'
  | fill _ _ ht => exact State.nears_fill hrun hbusy ht
  | stuff _ _ ht => exact State.nears_stuff hrun ht hroom'
  | marker _ _ ht h0 hf hu =>
    exact (State.acquire_acquired h0 hf hu).nears_marker (decodeCode_isMarker h0 hf) hroom
      (State.acquire_turnsLeft_lt hrun ht hu)
  | overflow h =>
    rcases h with ⟨hnone, hav⟩ | ⟨code, ht, hnone⟩
    · exact absurd hnone (State.acquireFirst_ne_none hav hroom')
    · exact absurd hnone (State.acquire_ne_none hrun ht hroom')

theorem step_restarting_nears {phase : RestartPhase} {run : Nat} (ha : s.activity = .restarting phase run) :
    s.Nears (step s) := by
  have hrun : s.activity.run = run := by rw [ha]; rfl
  have hbusy : s.activity ≠ .idle := by rw [ha]; exact nofun
  have hroom' : s.source.avail < 2 ^ 64 := by omega
  have hturn := step_restarting ha
  generalize step s = o at hturn
  cases hturn with
  | starved => exact .ended rfl
  | garbage ht => exact State.nears_garbage hrun ht hroom'
  | fill ht => exact State.nears_fill hrun hbusy ht
  | stuff ht => exact State.nears_stuff hrun ht hroom'
  | @marker code u ht h0 hf hu =>
    obtain ⟨t, hfound⟩ := u.restartFound_is_next phase
    have hzero : u.activity.run = 0 := by rw [(State.acquire_some.1 hu).2, Activity.rewind_run]
    exact ⟨t, hfound, (State.restartFound_turnsLeft_le hzero hfound).imp_right fun hle =>
      hle.trans_lt (State.acquire_turnsLeft_lt hrun ht hu)⟩
  | overflow ht hnone => exact absurd hnone (State.acquire_ne_none hrun ht hroom')

theorem step_running_nears (hi : s.Inv) (hbusy : s.activity ≠ .idle) : s.Nears (step s) := by
  cases ha : s.activity with
  | idle => exact absurd ha hbusy
  | reading run => exact step_reading_nears hroom hi ha
  | restarting phase run => exact step_restarting_nears hroom ha

/-- A running command has ended after as many turns as `turnsLeft` counts, or fewer. -/
theorem exists_runSteps_idle (hi : s.Inv) (hbusy : s.activity ≠ .idle) :
    ∃ n t, n ≤ s.turnsLeft ∧ runSteps n s = some t ∧
      t.activity = .idle ∧ t.source = s.source ∧ t.inputs = s.inputs := by
  induction hm : s.turnsLeft using Nat.strong_induction_on generalizing s with
  | _ m ih =>
    subst hm
    obtain ⟨u, hstep, hnear⟩ := step_running_nears hroom hi hbusy
    have hsame := sameSurroundings_of_step_running hbusy hstep
    by_cases hidle : u.activity = .idle
    · exact ⟨1, u, Nat.le_add_left _ _, runSteps_succ hstep, hidle, hsame.source, hsame.inputs⟩
    · have hless := hnear.resolve_left hidle
      obtain ⟨n, t, hn, hrun, hend, hsource, hinputs⟩ :=
        ih _ hless (by rwa [hsame.source]) (hi.step hstep) hidle rfl
      exact ⟨n + 1, t, hn.trans_lt hless, (runSteps_succ hstep).trans hrun, hend, hsource.trans hsame.source,
        hinputs.trans hsame.inputs⟩

end Steps

/-- Settles O58: an idle core stands at once, a running command ends within the turns it has left. -/
theorem commandsEnd : Obligations.CommandsEnd := by
  intro s hi hroom
  by_cases hidle : s.activity = .idle
  · exact ⟨0, s, Nat.zero_le _, rfl, fun hbusy => absurd hidle hbusy⟩
  · obtain ⟨n, t, hn, hrun, hend⟩ := exists_runSteps_idle hroom hi hidle
    exact ⟨n, t, hn.trans s.turnsLeft_le, hrun, fun _ => hend⟩

end Sys2Proof.Machine
